-- ==== Sys2Proof/Word.lean ====
section
/-! DEFINITION. The quantities of the machine: byte, halfword, fullword, doubleword (20_memory.md R63), the
four-bit register fields (30_encoding.md R101) and the two-bit bank numbers (10_state.md R26). Bit 0 of the manual is
the most significant bit (00_scope.md R7): manual bit n of a w-bit quantity is `getMsbD n`. -/

namespace Sys2Proof

/-- Eight bits. -/
abbrev Byte := BitVec 8

/-- Sixteen bits: the manual's halfword. -/
abbrev Word := BitVec 16

/-- Thirty-two bits: the manual's fullword. -/
abbrev Full := BitVec 32

/-- Sixty-four bits: the manual's doubleword, four registers. -/
abbrev Quad := BitVec 64

/-- A four-bit field: a register number, a mask, or a short operand. -/
abbrev Nibble := BitVec 4

/-- A two-bit memory bank number. -/
abbrev Bank := BitVec 2

end Sys2Proof
end

