-- ==== Sys2Proof/Config.lean ====
section
/-! DEFINITION. What an implementation fixes (00_scope.md R6, 92_eei_decisions.md) and the free values. What the
machine takes as an argument is a value of `Params`; an opaque constant has no body that a proof could use. A theorem
holds whatever either is. -/

namespace Sys2Proof

/-- The physical address of a byte: bank then address (20_memory.md R60). -/
def phys (b : Bank) (a : Word) : Nat := b.toNat * 65536 + a.toNat

/-- A run of fitted memory: its first physical address and how many bytes it holds. -/
structure MemBlock where
  /-- The first physical address. -/
  base : Nat
  /-- The number of bytes. -/
  size : Nat
  deriving DecidableEq, Repr

/-- The parameters of 00_scope.md R6 that the model takes as an argument, and one for a point on which the spec's files
differ. -/
structure Params where
  /-- The fitted memory, from which `memPresent` says MEM_PRESENT (20_memory.md R61, log 4). -/
  blocks : List MemBlock
  /-- QPTR_LOC: the bank-0 address of the Queue Pointer (60_exceptions.md R472, log 17). -/
  qptrLoc : Word
  /-- HAS_TRIG: the trigonometric option is fitted (49_list_trig_augment.md R416, log 47). -/
  hasTrig : Bool
  /-- HAS_AUGMENT: the augment set is fitted (49_list_trig_augment.md R430, log 47). -/
  hasAugment : Bool
  /-- A read that times out leaves a draw in its destination (48_io.md R362 (d)); else it writes no register and no
  memory (93_implementation_defined.md U15). DESIGN CHOICE: the model's own parameter (log 49). -/
  timeoutDraws : Bool
  deriving DecidableEq, Repr

/-- The defaults of 92_eei_decisions.md, with all four banks fitted. DESIGN CHOICE, unsafe (log 4); the address of the
Queue Pointer is PRESUMED (log 17); a read that times out as in U15 (log 49). -/
def Params.default : Params :=
  { blocks := [⟨0, 262144⟩], qptrLoc := 0x0080, hasTrig := true, hasAugment := true, timeoutDraws := false }

/-- Whether a block holds a physical address. -/
def MemBlock.holds (m : MemBlock) (p : Nat) : Bool := decide (m.base ≤ p) && decide (p < m.base + m.size)

/-- MEM_PRESENT (20_memory.md R61): the byte at bank and address is memory. Addresses 0000 to 02CF of bank 0 always are
(92_eei_decisions.md D4). -/
def memPresent (ps : Params) (b : Bank) (a : Word) : Bool :=
  decide (phys b a < 0x02D0) || ps.blocks.any fun m => m.holds (phys b a)

/-- The codes of the shift row in which OPC_SRQA may lie (30_encoding.md R113). -/
def Config.srqaCodes : Vector Byte 3 := #v[0xE0, 0xE5, 0xE6]

/-- The codes of the trigonometric row in which OPC_ATNR and OPC_SQDR may lie (30_encoding.md R113). -/
def Config.trigCodes : Vector Byte 13 :=
  #v[0x82, 0x83, 0x85, 0x86, 0x87, 0x88, 0x89, 0x8A, 0x8B, 0x8C, 0x8D, 0x8E, 0x8F]

/-- OPC_SRQA (30_encoding.md R115): which candidate is the code of SRQA, none while it is unset. Open (log 12). -/
opaque Config.srqaCode : Option (Fin 3)

/-- OPC_ATNR (30_encoding.md R115). Open (log 12). -/
opaque Config.atnrCode : Option (Fin 13)

/-- OPC_SQDR (30_encoding.md R115). Open (log 12). -/
opaque Config.sqdrCode : Option (Fin 13)

/-- BX_COMPARE (45_branch.md R295): true for the signed comparison. Open (log 32). -/
opaque Config.bxSigned : Bool

/-- ATN_FOUR_QUADRANT (49_list_trig_augment.md R426): true when only the four-quadrant angle is admitted. Open
(log 25). -/
opaque Config.atnFourQuadrant : Bool

/-- The free values (00_scope.md R18, log 8): lane `lane` of draw number `draw`. DESIGN CHOICE of form; no value
is chosen. -/
opaque Config.free (draw lane : Nat) : Full

/-- The arbitrary contents of memory at draw number `draw` (70_reset_and_hazards.md R531, log 36): bytes stored one
after another into memory with nothing listed. -/
opaque Config.image (draw : Nat) : List (Bank × Word × Byte)

end Sys2Proof
end

