-- ==== Sys2Proof/Syntax.lean ====
section
/-! DEFINITION. The instructions: one constructor for each row of spec/opcode_table.json, in its order
(30_encoding.md R111, R112). Fields (R101, R103): r1, r2 register numbers, m1 the branch mask, n the short operand,
x2 the index register (0 for none, R106), a2 the address halfword, i2 the immediate halfword. -/

namespace Sys2Proof

/-- An instruction of Appendix VI-1 or a no-operation code of Table VI-5. -/
inductive Instr where
  -- Load/Store (40_load_store.md)
  | lis (r1 n : Nibble)
  | lcs (r1 n : Nibble)
  | lhr (r1 r2 : Nibble)
  | lhi (r1 x2 : Nibble) (i2 : Word)
  | lh (r1 x2 : Nibble) (a2 : Word)
  | lh0 (r1 x2 : Nibble) (a2 : Word)
  | lh1 (r1 x2 : Nibble) (a2 : Word)
  | lh2 (r1 x2 : Nibble) (a2 : Word)
  | lh3 (r1 x2 : Nibble) (a2 : Word)
  | lm (r1 x2 : Nibble) (a2 : Word)
  | ldpr (r1 r2 : Nibble)
  | ldp (r1 x2 : Nibble) (a2 : Word)
  | sth (r1 x2 : Nibble) (a2 : Word)
  | sth0 (r1 x2 : Nibble) (a2 : Word)
  | sth1 (r1 x2 : Nibble) (a2 : Word)
  | sth2 (r1 x2 : Nibble) (a2 : Word)
  | sth3 (r1 x2 : Nibble) (a2 : Word)
  | stm (r1 x2 : Nibble) (a2 : Word)
  | stdp (r1 x2 : Nibble) (a2 : Word)
  -- Arithmetic (41_arithmetic.md)
  | ais (r1 n : Nibble)
  | ahr (r1 r2 : Nibble)
  | ahi (r1 x2 : Nibble) (i2 : Word)
  | ah (r1 x2 : Nibble) (a2 : Word)
  | ahm (r1 x2 : Nibble) (a2 : Word)
  | achr (r1 r2 : Nibble)
  | ach (r1 x2 : Nibble) (a2 : Word)
  | adpr (r1 r2 : Nibble)
  | adp (r1 x2 : Nibble) (a2 : Word)
  | sis (r1 n : Nibble)
  | shr (r1 r2 : Nibble)
  | shi (r1 x2 : Nibble) (i2 : Word)
  | sh (r1 x2 : Nibble) (a2 : Word)
  | schr (r1 r2 : Nibble)
  | sch (r1 x2 : Nibble) (a2 : Word)
  | sdpr (r1 r2 : Nibble)
  | sdp (r1 x2 : Nibble) (a2 : Word)
  | mhr (r1 r2 : Nibble)
  | mh (r1 x2 : Nibble) (a2 : Word)
  | mhur (r1 r2 : Nibble)
  | mhu (r1 x2 : Nibble) (a2 : Word)
  | mdpr (r1 r2 : Nibble)
  | mdp (r1 x2 : Nibble) (a2 : Word)
  | dhr (r1 r2 : Nibble)
  | dh (r1 x2 : Nibble) (a2 : Word)
  | ddpr (r1 r2 : Nibble)
  | ddp (r1 x2 : Nibble) (a2 : Word)
  -- Logical/Compare (42_logical_compare.md)
  | nhr (r1 r2 : Nibble)
  | nhi (r1 x2 : Nibble) (i2 : Word)
  | nh (r1 x2 : Nibble) (a2 : Word)
  | ohr (r1 r2 : Nibble)
  | ohi (r1 x2 : Nibble) (i2 : Word)
  | oh (r1 x2 : Nibble) (a2 : Word)
  | xhr (r1 r2 : Nibble)
  | xhi (r1 x2 : Nibble) (i2 : Word)
  | xh (r1 x2 : Nibble) (a2 : Word)
  | thi (r1 x2 : Nibble) (i2 : Word)
  | clhr (r1 r2 : Nibble)
  | clhi (r1 x2 : Nibble) (i2 : Word)
  | clh (r1 x2 : Nibble) (a2 : Word)
  | cldpr (r1 r2 : Nibble)
  | cldp (r1 x2 : Nibble) (a2 : Word)
  | chr (r1 r2 : Nibble)
  | chi (r1 x2 : Nibble) (i2 : Word)
  | ch (r1 x2 : Nibble) (a2 : Word)
  | cdpr (r1 r2 : Nibble)
  | cdp (r1 x2 : Nibble) (a2 : Word)
  -- Byte (43_byte.md)
  | lbr (r1 r2 : Nibble)
  | lb (r1 x2 : Nibble) (a2 : Word)
  | stbr (r1 r2 : Nibble)
  | stb (r1 x2 : Nibble) (a2 : Word)
  | exbr (r1 r2 : Nibble)
  | clb (r1 x2 : Nibble) (a2 : Word)
  -- Shift/Rotate (44_shift_rotate.md)
  | slls (r1 n : Nibble)
  | slhl (r1 x2 : Nibble) (i2 : Word)
  | sll (r1 x2 : Nibble) (i2 : Word)
  | slql (r1 x2 : Nibble) (i2 : Word)
  | srls (r1 n : Nibble)
  | srhl (r1 x2 : Nibble) (i2 : Word)
  | srl (r1 x2 : Nibble) (i2 : Word)
  | srql (r1 x2 : Nibble) (i2 : Word)
  | rll (r1 x2 : Nibble) (i2 : Word)
  | rrl (r1 x2 : Nibble) (i2 : Word)
  | slha (r1 x2 : Nibble) (i2 : Word)
  | sla (r1 x2 : Nibble) (i2 : Word)
  | slqa (r1 x2 : Nibble) (i2 : Word)
  | srha (r1 x2 : Nibble) (i2 : Word)
  | sra (r1 x2 : Nibble) (i2 : Word)
  | srqa (r1 x2 : Nibble) (i2 : Word)
  -- Branch (45_branch.md)
  | btbs (m1 n : Nibble)
  | btfs (m1 n : Nibble)
  | btcr (m1 r2 : Nibble)
  | btc (m1 x2 : Nibble) (a2 : Word)
  | bfbs (m1 n : Nibble)
  | bffs (m1 n : Nibble)
  | bfcr (m1 r2 : Nibble)
  | bfc (m1 x2 : Nibble) (a2 : Word)
  | bxh (r1 x2 : Nibble) (i2 : Word)
  | bxle (r1 x2 : Nibble) (i2 : Word)
  | balr (r1 r2 : Nibble)
  | bal (r1 x2 : Nibble) (a2 : Word)
  -- Floating point (46_floating_point.md)
  | ler (r1 r2 : Nibble)
  | le (r1 x2 : Nibble) (a2 : Word)
  | ste (r1 x2 : Nibble) (a2 : Word)
  | aer (r1 r2 : Nibble)
  | ae (r1 x2 : Nibble) (a2 : Word)
  | ser (r1 r2 : Nibble)
  | se (r1 x2 : Nibble) (a2 : Word)
  | cer (r1 r2 : Nibble)
  | ce (r1 x2 : Nibble) (a2 : Word)
  | mer (r1 r2 : Nibble)
  | me (r1 x2 : Nibble) (a2 : Word)
  | der (r1 r2 : Nibble)
  | de (r1 x2 : Nibble) (a2 : Word)
  -- System control (47_system_control.md)
  | lpsw (r1 x2 : Nibble) (i2 : Word)
  | epor (r1 r2 : Nibble)
  | eppr (r1 r2 : Nibble)
  | epsr (r1 r2 : Nibble)
  | sint (r1 x2 : Nibble) (i2 : Word)
  | svc (r1 x2 : Nibble) (i2 : Word)
  -- Input/Output (48_io.md)
  | air (r1 r2 : Nibble)
  | ai (r1 x2 : Nibble) (a2 : Word)
  | ssr (r1 r2 : Nibble)
  | ss (r1 x2 : Nibble) (a2 : Word)
  | ocr (r1 r2 : Nibble)
  | oc (r1 x2 : Nibble) (a2 : Word)
  | rdr (r1 r2 : Nibble)
  | rd (r1 x2 : Nibble) (a2 : Word)
  | wdr (r1 r2 : Nibble)
  | wd (r1 x2 : Nibble) (a2 : Word)
  | al (r1 x2 : Nibble) (a2 : Word)
  | rhr (r1 r2 : Nibble)
  | rh (r1 x2 : Nibble) (a2 : Word)
  | whr (r1 r2 : Nibble)
  | wh (r1 x2 : Nibble) (a2 : Word)
  | rbr (r1 r2 : Nibble)
  | rb (r1 x2 : Nibble) (a2 : Word)
  | wbr (r1 r2 : Nibble)
  | wb (r1 x2 : Nibble) (a2 : Word)
  -- List (49_list_trig_augment.md)
  | atl (r1 x2 : Nibble) (a2 : Word)
  | abl (r1 x2 : Nibble) (a2 : Word)
  | rtl (r1 x2 : Nibble) (a2 : Word)
  | rbl (r1 x2 : Nibble) (a2 : Word)
  -- Trigonometric (49_list_trig_augment.md)
  | ecpr (r1 r2 : Nibble)
  | cosr (r1 r2 : Nibble)
  | cos (r1 x2 : Nibble) (a2 : Word)
  | asnr (r1 r2 : Nibble)
  | asn (r1 x2 : Nibble) (a2 : Word)
  | atnr (r1 r2 : Nibble)
  | atn (r1 x2 : Nibble) (a2 : Word)
  | sqdr (r1 r2 : Nibble)
  | sqd (r1 x2 : Nibble) (a2 : Word)
  -- Augment (49_list_trig_augment.md)
  | sesb (r1 x2 : Nibble) (i2 : Word)
  | resb (r1 x2 : Nibble) (i2 : Word)
  | lchr (r1 r2 : Nibble)
  | lch (r1 x2 : Nibble) (a2 : Word)
  | lcnhr (r1 r2 : Nibble)
  | lcnh (r1 x2 : Nibble) (a2 : Word)
  | lavr (r1 r2 : Nibble)
  | lav (r1 x2 : Nibble) (a2 : Word)
  -- 48-bit floating-point no-ops (46_floating_point.md)
  | lfr (r1 r2 : Nibble)
  | lf (r1 x2 : Nibble) (a2 : Word)
  | stf (r1 x2 : Nibble) (a2 : Word)
  | afr (r1 r2 : Nibble)
  | af (r1 x2 : Nibble) (a2 : Word)
  | sfr (r1 r2 : Nibble)
  | sf (r1 x2 : Nibble) (a2 : Word)
  | cfr (r1 r2 : Nibble)
  | cf (r1 x2 : Nibble) (a2 : Word)
  | mfr (r1 r2 : Nibble)
  | mf (r1 x2 : Nibble) (a2 : Word)
  | dfr (r1 r2 : Nibble)
  | df (r1 x2 : Nibble) (a2 : Word)
  deriving DecidableEq, Repr

end Sys2Proof
end

