-- ==== Sys2Proof/WellFormed.lean ====
section
/-! DEFINITION. The restrictions that the spec puts on the fields of an instruction (30_encoding.md R105, R109 (6)).
An operation code is never illegal by the values of its fields (R113); a broken restriction is refused when the
instruction executes (log 6, log 7). -/

namespace Sys2Proof

/-- An even register number: the first of a pair (10_state.md R22), or a floating-point register (R32). -/
def evenReg (r : Nibble) : Bool := r.getLsbD 0 == false

/-- The first of four consecutive registers: even and at most 12 (10_state.md R22, 44_shift_rotate.md R269). -/
def quadReg (r : Nibble) : Bool := evenReg r && decide (r.toNat ≤ 12)

/-- The first of three consecutive registers: at most 13 (10_state.md R23). -/
def tripleReg (r : Nibble) : Bool := decide (r.toNat ≤ 13)

/-- The first of two consecutive registers, of either parity: at most 14 (47_system_control.md R343,
48_io.md R381). -/
def pairReg (r : Nibble) : Bool := decide (r.toNat ≤ 14)

/-- The register-field restriction of each instruction's own rule (log 6). -/
def registersOk : Instr → Bool
  | .lis .. | .lcs .. | .lhr .. | .lhi .. | .lh ..
  | .lh0 .. | .lh1 .. | .lh2 .. | .lh3 .. | .lm ..
  | .sth .. | .sth0 .. | .sth1 .. | .sth2 .. | .sth3 ..
  | .stm .. | .ais .. | .ahr .. | .ahi .. | .ah ..
  | .ahm .. | .achr .. | .ach .. | .sis .. | .shr ..
  | .shi .. | .sh .. | .schr .. | .sch .. | .nhr ..
  | .nhi .. | .nh .. | .ohr .. | .ohi .. | .oh ..
  | .xhr .. | .xhi .. | .xh .. | .thi .. | .clhr ..
  | .clhi .. | .clh .. | .chr .. | .chi .. | .ch ..
  | .lbr .. | .lb .. | .stbr .. | .stb .. | .exbr ..
  | .clb .. | .slls .. | .slhl .. | .srls .. | .srhl ..
  | .slha .. | .srha .. | .btbs .. | .btfs .. | .btcr ..
  | .btc .. | .bfbs .. | .bffs .. | .bfcr .. | .bfc ..
  | .balr .. | .bal .. | .lpsw .. | .epor .. | .epsr ..
  | .sint .. | .svc .. | .air .. | .ai .. | .ssr ..
  | .ss .. | .ocr .. | .oc .. | .rdr .. | .rd ..
  | .wdr .. | .wd .. | .al .. | .rhr .. | .rh ..
  | .whr .. | .wh .. | .rb .. | .wb .. | .atl ..
  | .abl .. | .rtl .. | .rbl .. | .ecpr .. | .sesb ..
  | .resb .. | .lchr .. | .lch .. | .lcnhr .. | .lcnh ..
  | .lavr .. | .lav .. | .lfr .. | .lf .. | .stf ..
  | .afr .. | .af .. | .sfr .. | .sf .. | .cfr ..
  | .cf .. | .mfr .. | .mf .. | .dfr .. | .df .. => true
  | .ldpr r1 r2 => evenReg r1 && evenReg r2
  | .ldp r1 _ _ => evenReg r1
  | .stdp r1 _ _ => evenReg r1
  | .adpr r1 r2 => evenReg r1 && evenReg r2
  | .adp r1 _ _ => evenReg r1
  | .sdpr r1 r2 => evenReg r1 && evenReg r2
  | .sdp r1 _ _ => evenReg r1
  | .mhr r1 _ => evenReg r1
  | .mh r1 _ _ => evenReg r1
  | .mhur r1 _ => evenReg r1
  | .mhu r1 _ _ => evenReg r1
  | .mdpr r1 r2 => quadReg r1 && evenReg r2
  | .mdp r1 _ _ => quadReg r1
  | .dhr r1 _ => evenReg r1
  | .dh r1 _ _ => evenReg r1
  | .ddpr r1 r2 => quadReg r1 && evenReg r2
  | .ddp r1 _ _ => quadReg r1
  | .cldpr r1 r2 => evenReg r1 && evenReg r2
  | .cldp r1 _ _ => evenReg r1
  | .cdpr r1 r2 => evenReg r1 && evenReg r2
  | .cdp r1 _ _ => evenReg r1
  | .sll r1 _ _ => evenReg r1
  | .slql r1 _ _ => quadReg r1
  | .srl r1 _ _ => evenReg r1
  | .srql r1 _ _ => quadReg r1
  | .rll r1 _ _ => evenReg r1
  | .rrl r1 _ _ => evenReg r1
  | .sla r1 _ _ => evenReg r1
  | .slqa r1 _ _ => quadReg r1
  | .sra r1 _ _ => evenReg r1
  | .srqa r1 _ _ => quadReg r1
  | .bxh r1 _ _ => tripleReg r1
  | .bxle r1 _ _ => tripleReg r1
  | .ler r1 r2 => evenReg r1 && evenReg r2
  | .le r1 _ _ => evenReg r1
  | .ste r1 _ _ => evenReg r1
  | .aer r1 r2 => evenReg r1 && evenReg r2
  | .ae r1 _ _ => evenReg r1
  | .ser r1 r2 => evenReg r1 && evenReg r2
  | .se r1 _ _ => evenReg r1
  | .cer r1 r2 => evenReg r1 && evenReg r2
  | .ce r1 _ _ => evenReg r1
  | .mer r1 r2 => evenReg r1 && evenReg r2
  | .me r1 _ _ => evenReg r1
  | .der r1 r2 => evenReg r1 && evenReg r2
  | .de r1 _ _ => evenReg r1
  | .eppr r1 _ => pairReg r1
  | .rbr _ r2 => pairReg r2
  | .wbr _ r2 => pairReg r2
  | .cosr r1 r2 => quadReg r1 && evenReg r2
  | .cos r1 _ _ => quadReg r1
  | .asnr r1 r2 => evenReg r1 && quadReg r2
  | .asn r1 _ _ => evenReg r1
  | .atnr r1 r2 => quadReg r1 && quadReg r2
  | .atn r1 _ _ => quadReg r1
  | .sqdr r1 r2 => evenReg r1 && quadReg r2
  | .sqd r1 _ _ => evenReg r1

/-- The must-be-zero restriction of LPSW, SINT, AL, SESB and RESB (30_encoding.md R105, log 7). -/
def zerosOk : Instr → Bool
  | .lis .. | .lcs .. | .lhr .. | .lhi .. | .lh ..
  | .lh0 .. | .lh1 .. | .lh2 .. | .lh3 .. | .lm ..
  | .ldpr .. | .ldp .. | .sth .. | .sth0 .. | .sth1 ..
  | .sth2 .. | .sth3 .. | .stm .. | .stdp .. | .ais ..
  | .ahr .. | .ahi .. | .ah .. | .ahm .. | .achr ..
  | .ach .. | .adpr .. | .adp .. | .sis .. | .shr ..
  | .shi .. | .sh .. | .schr .. | .sch .. | .sdpr ..
  | .sdp .. | .mhr .. | .mh .. | .mhur .. | .mhu ..
  | .mdpr .. | .mdp .. | .dhr .. | .dh .. | .ddpr ..
  | .ddp .. | .nhr .. | .nhi .. | .nh .. | .ohr ..
  | .ohi .. | .oh .. | .xhr .. | .xhi .. | .xh ..
  | .thi .. | .clhr .. | .clhi .. | .clh .. | .cldpr ..
  | .cldp .. | .chr .. | .chi .. | .ch .. | .cdpr ..
  | .cdp .. | .lbr .. | .lb .. | .stbr .. | .stb ..
  | .exbr .. | .clb .. | .slls .. | .slhl .. | .sll ..
  | .slql .. | .srls .. | .srhl .. | .srl .. | .srql ..
  | .rll .. | .rrl .. | .slha .. | .sla .. | .slqa ..
  | .srha .. | .sra .. | .srqa .. | .btbs .. | .btfs ..
  | .btcr .. | .btc .. | .bfbs .. | .bffs .. | .bfcr ..
  | .bfc .. | .bxh .. | .bxle .. | .balr .. | .bal ..
  | .ler .. | .le .. | .ste .. | .aer .. | .ae ..
  | .ser .. | .se .. | .cer .. | .ce .. | .mer ..
  | .me .. | .der .. | .de .. | .epor .. | .eppr ..
  | .epsr .. | .svc .. | .air .. | .ai .. | .ssr ..
  | .ss .. | .ocr .. | .oc .. | .rdr .. | .rd ..
  | .wdr .. | .wd .. | .rhr .. | .rh .. | .whr ..
  | .wh .. | .rbr .. | .rb .. | .wbr .. | .wb ..
  | .atl .. | .abl .. | .rtl .. | .rbl .. | .ecpr ..
  | .cosr .. | .cos .. | .asnr .. | .asn .. | .atnr ..
  | .atn .. | .sqdr .. | .sqd .. | .lchr .. | .lch ..
  | .lcnhr .. | .lcnh .. | .lavr .. | .lav .. | .lfr ..
  | .lf .. | .stf .. | .afr .. | .af .. | .sfr ..
  | .sf .. | .cfr .. | .cf .. | .mfr .. | .mf ..
  | .dfr .. | .df .. => true
  | .lpsw r1 _ _ => r1 == 0
  | .sint r1 _ _ => r1 == 0
  | .al r1 _ _ => r1 == 0
  | .sesb r1 x2 _ => r1 == 0 && x2 == 0
  | .resb r1 x2 _ => r1 == 0 && x2 == 0

/-- A well-formed instruction breaks no field restriction. -/
def wellFormed (i : Instr) : Bool := registersOk i && zerosOk i

end Sys2Proof
end

