-- ==== Sys2Proof/Decode.lean ====
section
/-! DEFINITION. From bits to instructions and back (30_encoding.md R100 to R115): the decoder, total and rejecting by
name, then the encoder. -/

namespace Sys2Proof

/-- Why bits are no instruction. -/
inductive DecodeError where
  /-- The operation code is assigned to no instruction: the Illegal Instruction interrupt (30_encoding.md R113). -/
  | illegalOpcode (op : Byte)
  /-- The operation code may be one the source has lost (30_encoding.md R115), and its parameter is unset. -/
  | lostOpcode (op : Byte)
  deriving DecidableEq, Repr

/-- Why a list of bytes starts with no instruction. -/
inductive BytesError where
  /-- Fewer bytes than the operation code asks for (30_encoding.md R102). -/
  | truncated
  /-- The operation code is that of no instruction. -/
  | code (e : DecodeError)
  deriving DecidableEq, Repr

/-- The operation code: manual bits 0:7 of the first halfword (30_encoding.md R101). -/
def opField (w : Word) : Byte := w.extractLsb' 8 8

/-- R1 or M1: manual bits 8:11 of the first halfword (30_encoding.md R101). -/
def field1 (w : Word) : Nibble := w.extractLsb' 4 4

/-- R2, N or X2: manual bits 12:15 of the first halfword (30_encoding.md R101). -/
def field2 (w : Word) : Nibble := w.extractLsb' 0 4

/-- A fullword instruction's code has the bit of value 40 hexadecimal set (30_encoding.md R102). -/
def longCode (op : Byte) : Bool := op.getLsbD 6

/-- The thirteen no-operation codes (30_encoding.md R114). -/
def noOpCode (op : Byte) : Bool :=
  [0x38, 0x39, 0x3A, 0x3B, 0x3C, 0x3D, 0x70, 0x78, 0x79, 0x7A, 0x7B, 0x7C, 0x7D].contains op.toNat

/-- The codes of the trigonometric option, with those in which its two lost ones may lie (49_list_trig_augment.md R416,
30_encoding.md R113). -/
def trigCode (op : Byte) : Bool :=
  [0x80, 0x81, 0x84, 0xF1, 0xF2, 0xF3, 0xF4].contains op.toNat || Config.trigCodes.toList.contains op

/-- The codes of the augment set (49_list_trig_augment.md R430). -/
def augmentCode (op : Byte) : Bool := [0x10, 0x11, 0x12, 0x51, 0x52, 0x53, 0xE3, 0xE4].contains op.toNat

/-- A code of an option that is not fitted is unassigned (49_list_trig_augment.md R416, R430). -/
def fitted (ps : Params) (op : Byte) : Bool := (ps.hasTrig || !trigCode op) && (ps.hasAugment || !augmentCode op)

/-- The halfword instructions of the operation-code map (30_encoding.md R111). -/
def shortInstr (op : Nat) (a b : Nibble) : Option Instr :=
  match op with
  | 0x01 => some (.balr a b)
  | 0x02 => some (.btcr a b)
  | 0x03 => some (.bfcr a b)
  | 0x04 => some (.nhr a b)
  | 0x05 => some (.clhr a b)
  | 0x06 => some (.ohr a b)
  | 0x07 => some (.xhr a b)
  | 0x08 => some (.lhr a b)
  | 0x09 => some (.chr a b)
  | 0x0A => some (.ahr a b)
  | 0x0B => some (.shr a b)
  | 0x0C => some (.mhr a b)
  | 0x0D => some (.dhr a b)
  | 0x0E => some (.achr a b)
  | 0x0F => some (.schr a b)
  | 0x10 => some (.lcnhr a b)
  | 0x11 => some (.lavr a b)
  | 0x12 => some (.lchr a b)
  | 0x15 => some (.cldpr a b)
  | 0x18 => some (.ldpr a b)
  | 0x19 => some (.cdpr a b)
  | 0x1A => some (.adpr a b)
  | 0x1B => some (.sdpr a b)
  | 0x1C => some (.mdpr a b)
  | 0x1D => some (.ddpr a b)
  | 0x20 => some (.btbs a b)
  | 0x21 => some (.btfs a b)
  | 0x22 => some (.bfbs a b)
  | 0x23 => some (.bffs a b)
  | 0x24 => some (.lis a b)
  | 0x25 => some (.lcs a b)
  | 0x26 => some (.ais a b)
  | 0x27 => some (.sis a b)
  | 0x28 => some (.ler a b)
  | 0x29 => some (.cer a b)
  | 0x2A => some (.aer a b)
  | 0x2B => some (.ser a b)
  | 0x2C => some (.mer a b)
  | 0x2D => some (.der a b)
  | 0x2E => some (.epor a b)
  | 0x2F => some (.eppr a b)
  | 0x38 => some (.lfr a b)
  | 0x39 => some (.cfr a b)
  | 0x3A => some (.afr a b)
  | 0x3B => some (.sfr a b)
  | 0x3C => some (.mfr a b)
  | 0x3D => some (.dfr a b)
  | 0x80 => some (.ecpr a b)
  | 0x81 => some (.cosr a b)
  | 0x84 => some (.asnr a b)
  | 0x90 => some (.srls a b)
  | 0x91 => some (.slls a b)
  | 0x92 => some (.stbr a b)
  | 0x93 => some (.lbr a b)
  | 0x94 => some (.exbr a b)
  | 0x95 => some (.epsr a b)
  | 0x96 => some (.wbr a b)
  | 0x97 => some (.rbr a b)
  | 0x98 => some (.whr a b)
  | 0x99 => some (.rhr a b)
  | 0x9A => some (.wdr a b)
  | 0x9B => some (.rdr a b)
  | 0x9C => some (.mhur a b)
  | 0x9D => some (.ssr a b)
  | 0x9E => some (.ocr a b)
  | 0x9F => some (.air a b)
  | _ => none

/-- The fullword instructions of the operation-code map (30_encoding.md R111). -/
def longInstr (op : Nat) (a b : Nibble) (w2 : Word) : Option Instr :=
  match op with
  | 0x40 => some (.sth a b w2)
  | 0x41 => some (.bal a b w2)
  | 0x42 => some (.btc a b w2)
  | 0x43 => some (.bfc a b w2)
  | 0x44 => some (.nh a b w2)
  | 0x45 => some (.clh a b w2)
  | 0x46 => some (.oh a b w2)
  | 0x47 => some (.xh a b w2)
  | 0x48 => some (.lh a b w2)
  | 0x49 => some (.ch a b w2)
  | 0x4A => some (.ah a b w2)
  | 0x4B => some (.sh a b w2)
  | 0x4C => some (.mh a b w2)
  | 0x4D => some (.dh a b w2)
  | 0x4E => some (.ach a b w2)
  | 0x4F => some (.sch a b w2)
  | 0x50 => some (.stdp a b w2)
  | 0x51 => some (.lcnh a b w2)
  | 0x52 => some (.lav a b w2)
  | 0x53 => some (.lch a b w2)
  | 0x55 => some (.cldp a b w2)
  | 0x58 => some (.ldp a b w2)
  | 0x59 => some (.cdp a b w2)
  | 0x5A => some (.adp a b w2)
  | 0x5B => some (.sdp a b w2)
  | 0x5C => some (.mdp a b w2)
  | 0x5D => some (.ddp a b w2)
  | 0x60 => some (.ste a b w2)
  | 0x61 => some (.ahm a b w2)
  | 0x64 => some (.atl a b w2)
  | 0x65 => some (.abl a b w2)
  | 0x66 => some (.rtl a b w2)
  | 0x67 => some (.rbl a b w2)
  | 0x68 => some (.le a b w2)
  | 0x69 => some (.ce a b w2)
  | 0x6A => some (.ae a b w2)
  | 0x6B => some (.se a b w2)
  | 0x6C => some (.me a b w2)
  | 0x6D => some (.de a b w2)
  | 0x70 => some (.stf a b w2)
  | 0x74 => some (.lh0 a b w2)
  | 0x75 => some (.lh1 a b w2)
  | 0x76 => some (.lh2 a b w2)
  | 0x77 => some (.lh3 a b w2)
  | 0x78 => some (.lf a b w2)
  | 0x79 => some (.cf a b w2)
  | 0x7A => some (.af a b w2)
  | 0x7B => some (.sf a b w2)
  | 0x7C => some (.mf a b w2)
  | 0x7D => some (.df a b w2)
  | 0xC0 => some (.bxh a b w2)
  | 0xC1 => some (.bxle a b w2)
  | 0xC2 => some (.lpsw a b w2)
  | 0xC3 => some (.thi a b w2)
  | 0xC4 => some (.nhi a b w2)
  | 0xC5 => some (.clhi a b w2)
  | 0xC6 => some (.ohi a b w2)
  | 0xC7 => some (.xhi a b w2)
  | 0xC8 => some (.lhi a b w2)
  | 0xC9 => some (.chi a b w2)
  | 0xCA => some (.ahi a b w2)
  | 0xCB => some (.shi a b w2)
  | 0xCC => some (.srhl a b w2)
  | 0xCD => some (.slhl a b w2)
  | 0xCE => some (.srha a b w2)
  | 0xCF => some (.slha a b w2)
  | 0xD0 => some (.stm a b w2)
  | 0xD1 => some (.lm a b w2)
  | 0xD2 => some (.stb a b w2)
  | 0xD3 => some (.lb a b w2)
  | 0xD4 => some (.clb a b w2)
  | 0xD5 => some (.al a b w2)
  | 0xD6 => some (.wb a b w2)
  | 0xD7 => some (.rb a b w2)
  | 0xD8 => some (.wh a b w2)
  | 0xD9 => some (.rh a b w2)
  | 0xDA => some (.wd a b w2)
  | 0xDB => some (.rd a b w2)
  | 0xDC => some (.mhu a b w2)
  | 0xDD => some (.ss a b w2)
  | 0xDE => some (.oc a b w2)
  | 0xDF => some (.ai a b w2)
  | 0xE1 => some (.svc a b w2)
  | 0xE2 => some (.sint a b w2)
  | 0xE3 => some (.resb a b w2)
  | 0xE4 => some (.sesb a b w2)
  | 0xE7 => some (.slql a b w2)
  | 0xE8 => some (.srql a b w2)
  | 0xE9 => some (.slqa a b w2)
  | 0xEA => some (.rrl a b w2)
  | 0xEB => some (.rll a b w2)
  | 0xEC => some (.srl a b w2)
  | 0xED => some (.sll a b w2)
  | 0xEE => some (.sra a b w2)
  | 0xEF => some (.sla a b w2)
  | 0xF1 => some (.cos a b w2)
  | 0xF2 => some (.atn a b w2)
  | 0xF3 => some (.sqd a b w2)
  | 0xF4 => some (.asn a b w2)
  | 0xF8 => some (.sth0 a b w2)
  | 0xF9 => some (.sth1 a b w2)
  | 0xFA => some (.sth2 a b w2)
  | 0xFB => some (.sth3 a b w2)
  | _ => none

/-- The operation-code map (30_encoding.md R111). -/
def assignedInstr (op : Byte) (a b : Nibble) (w2 : Word) : Option Instr :=
  if longCode op then longInstr op.toNat a b w2 else shortInstr op.toNat a b

/-- The code of SRQA, when its parameter is set (30_encoding.md R115). -/
def srqaOp : Option Byte := Config.srqaCode.map fun k => Config.srqaCodes[k]

/-- The code of ATNR, when its parameter is set (30_encoding.md R115). -/
def atnrOp : Option Byte := Config.atnrCode.map fun k => Config.trigCodes[k]

/-- The code of SQDR, when its parameter is set to a code that ATNR does not have (30_encoding.md R115). -/
def sqdrOp : Option Byte :=
  match Config.sqdrCode.map fun k => Config.trigCodes[k] with
  | some op => if atnrOp = some op then none else some op
  | none => none

/-- A code that R111 assigns to nothing: one of the three lost instructions where a parameter names it; lost while a
parameter that could name it is unset; else illegal (30_encoding.md R113, R115, log 12). -/
def unassigned (op : Byte) (a b : Nibble) (w2 : Word) : Except DecodeError Instr :=
  if Config.srqaCodes.toList.contains op then
    if srqaOp = some op then .ok (.srqa a b w2)
    else if srqaOp.isNone then .error (.lostOpcode op)
    else .error (.illegalOpcode op)
  else if Config.trigCodes.toList.contains op then
    if atnrOp = some op then .ok (.atnr a b)
    else if sqdrOp = some op then .ok (.sqdr a b)
    else if atnrOp.isNone || sqdrOp.isNone then .error (.lostOpcode op)
    else .error (.illegalOpcode op)
  else .error (.illegalOpcode op)

/-- The instruction that an operation code, its two fields and the second halfword stand for in a machine with every
option (30_encoding.md R109, R113). The field values make no instruction illegal. -/
def decodeListed (op : Byte) (a b : Nibble) (w2 : Word) : Except DecodeError Instr :=
  match assignedInstr op a b w2 with
  | some i => .ok i
  | none => unassigned op a b w2

/-- The instruction that an operation code, its two fields and the second halfword stand for (30_encoding.md R113,
49_list_trig_augment.md R416, R430). -/
def decodeFields (ps : Params) (op : Byte) (a b : Nibble) (w2 : Word) : Except DecodeError Instr :=
  if fitted ps op then decodeListed op a b w2 else .error (.illegalOpcode op)

/-- Decode a first halfword and the halfword after it, which halfword instructions ignore (30_encoding.md R101). -/
def decode (ps : Params) (w1 w2 : Word) : Except DecodeError Instr :=
  decodeFields ps (opField w1) (field1 w1) (field2 w1) w2

/-- An instruction and the bytes after it, or why there is none. -/
def withRest (rest : List Byte) : Except DecodeError Instr → Except BytesError (Instr × List Byte)
  | .ok i => .ok (i, rest)
  | .error e => .error (.code e)

/-- Decode the bytes at an address, big-endian (30_encoding.md R101): the instruction and the bytes after it. -/
def decodeBytes (ps : Params) : List Byte → Except BytesError (Instr × List Byte)
  | b0 :: b1 :: rest =>
    if longCode b0 then
      match rest with
      | b2 :: b3 :: rest' => withRest rest' (decode ps (b0 ++ b1) (b2 ++ b3))
      | _ =>
        match decode ps (b0 ++ b1) 0 with
        | .ok _ => .error .truncated
        | .error e => .error (.code e)
    else withRest rest (decode ps (b0 ++ b1) 0)
  | _ => .error .truncated

/-- The two halfwords of a row of spec/opcode_table.json whose bits are `w`: the table numbers an instruction of two
halfwords as one big-endian number, its operation code in bits 31..24 (log 43). -/
def tableHalves (nbits w : Nat) : Word × Word :=
  if nbits ≤ 16 then (BitVec.ofNat 16 w, 0)
  else (BitVec.ofNat 16 (w >>> (nbits - 16)), BitVec.ofNat 16 (w <<< (32 - nbits)))

/-- The instruction the decoder reads, with the default parameters, from `nbits` bits `w` numbered as
spec/opcode_table.json numbers them. -/
def decodeTableWord (nbits w : Nat) : Option Instr :=
  match decode Params.default (tableHalves nbits w).1 (tableHalves nbits w).2 with
  | .ok i => some i
  | .error _ => none

/-- The halfwords of an encoded instruction. -/
structure Encoding where
  /-- The first halfword: operation code and the two four-bit fields. -/
  first : Word
  /-- The second halfword of the formats RX and RI. -/
  second : Option Word
  deriving DecidableEq, Repr

/-- The first halfword from its fields: OP*256 + R1*16 + R2 (30_encoding.md R101). -/
def firstHalf (op : Byte) (a b : Nibble) : Word := op ++ a ++ b

/-- A halfword instruction: formats RR and SF (30_encoding.md R101). -/
def short (op : Byte) (a b : Nibble) : Option Encoding := some ⟨firstHalf op a b, none⟩

/-- A fullword instruction: formats RX and RI (30_encoding.md R101). -/
def long (op : Byte) (a b : Nibble) (w2 : Word) : Option Encoding := some ⟨firstHalf op a b, some w2⟩

/-- The encoding that the listings give an instruction (30_encoding.md R101, R112): none for one of the three lost
instructions while its operation code is unset (R115). -/
def listed : Instr → Option Encoding
  | .lis r1 n => short 0x24 r1 n
  | .lcs r1 n => short 0x25 r1 n
  | .lhr r1 r2 => short 0x08 r1 r2
  | .lhi r1 x2 i2 => long 0xC8 r1 x2 i2
  | .lh r1 x2 a2 => long 0x48 r1 x2 a2
  | .lh0 r1 x2 a2 => long 0x74 r1 x2 a2
  | .lh1 r1 x2 a2 => long 0x75 r1 x2 a2
  | .lh2 r1 x2 a2 => long 0x76 r1 x2 a2
  | .lh3 r1 x2 a2 => long 0x77 r1 x2 a2
  | .lm r1 x2 a2 => long 0xD1 r1 x2 a2
  | .ldpr r1 r2 => short 0x18 r1 r2
  | .ldp r1 x2 a2 => long 0x58 r1 x2 a2
  | .sth r1 x2 a2 => long 0x40 r1 x2 a2
  | .sth0 r1 x2 a2 => long 0xF8 r1 x2 a2
  | .sth1 r1 x2 a2 => long 0xF9 r1 x2 a2
  | .sth2 r1 x2 a2 => long 0xFA r1 x2 a2
  | .sth3 r1 x2 a2 => long 0xFB r1 x2 a2
  | .stm r1 x2 a2 => long 0xD0 r1 x2 a2
  | .stdp r1 x2 a2 => long 0x50 r1 x2 a2
  | .ais r1 n => short 0x26 r1 n
  | .ahr r1 r2 => short 0x0A r1 r2
  | .ahi r1 x2 i2 => long 0xCA r1 x2 i2
  | .ah r1 x2 a2 => long 0x4A r1 x2 a2
  | .ahm r1 x2 a2 => long 0x61 r1 x2 a2
  | .achr r1 r2 => short 0x0E r1 r2
  | .ach r1 x2 a2 => long 0x4E r1 x2 a2
  | .adpr r1 r2 => short 0x1A r1 r2
  | .adp r1 x2 a2 => long 0x5A r1 x2 a2
  | .sis r1 n => short 0x27 r1 n
  | .shr r1 r2 => short 0x0B r1 r2
  | .shi r1 x2 i2 => long 0xCB r1 x2 i2
  | .sh r1 x2 a2 => long 0x4B r1 x2 a2
  | .schr r1 r2 => short 0x0F r1 r2
  | .sch r1 x2 a2 => long 0x4F r1 x2 a2
  | .sdpr r1 r2 => short 0x1B r1 r2
  | .sdp r1 x2 a2 => long 0x5B r1 x2 a2
  | .mhr r1 r2 => short 0x0C r1 r2
  | .mh r1 x2 a2 => long 0x4C r1 x2 a2
  | .mhur r1 r2 => short 0x9C r1 r2
  | .mhu r1 x2 a2 => long 0xDC r1 x2 a2
  | .mdpr r1 r2 => short 0x1C r1 r2
  | .mdp r1 x2 a2 => long 0x5C r1 x2 a2
  | .dhr r1 r2 => short 0x0D r1 r2
  | .dh r1 x2 a2 => long 0x4D r1 x2 a2
  | .ddpr r1 r2 => short 0x1D r1 r2
  | .ddp r1 x2 a2 => long 0x5D r1 x2 a2
  | .nhr r1 r2 => short 0x04 r1 r2
  | .nhi r1 x2 i2 => long 0xC4 r1 x2 i2
  | .nh r1 x2 a2 => long 0x44 r1 x2 a2
  | .ohr r1 r2 => short 0x06 r1 r2
  | .ohi r1 x2 i2 => long 0xC6 r1 x2 i2
  | .oh r1 x2 a2 => long 0x46 r1 x2 a2
  | .xhr r1 r2 => short 0x07 r1 r2
  | .xhi r1 x2 i2 => long 0xC7 r1 x2 i2
  | .xh r1 x2 a2 => long 0x47 r1 x2 a2
  | .thi r1 x2 i2 => long 0xC3 r1 x2 i2
  | .clhr r1 r2 => short 0x05 r1 r2
  | .clhi r1 x2 i2 => long 0xC5 r1 x2 i2
  | .clh r1 x2 a2 => long 0x45 r1 x2 a2
  | .cldpr r1 r2 => short 0x15 r1 r2
  | .cldp r1 x2 a2 => long 0x55 r1 x2 a2
  | .chr r1 r2 => short 0x09 r1 r2
  | .chi r1 x2 i2 => long 0xC9 r1 x2 i2
  | .ch r1 x2 a2 => long 0x49 r1 x2 a2
  | .cdpr r1 r2 => short 0x19 r1 r2
  | .cdp r1 x2 a2 => long 0x59 r1 x2 a2
  | .lbr r1 r2 => short 0x93 r1 r2
  | .lb r1 x2 a2 => long 0xD3 r1 x2 a2
  | .stbr r1 r2 => short 0x92 r1 r2
  | .stb r1 x2 a2 => long 0xD2 r1 x2 a2
  | .exbr r1 r2 => short 0x94 r1 r2
  | .clb r1 x2 a2 => long 0xD4 r1 x2 a2
  | .slls r1 n => short 0x91 r1 n
  | .slhl r1 x2 i2 => long 0xCD r1 x2 i2
  | .sll r1 x2 i2 => long 0xED r1 x2 i2
  | .slql r1 x2 i2 => long 0xE7 r1 x2 i2
  | .srls r1 n => short 0x90 r1 n
  | .srhl r1 x2 i2 => long 0xCC r1 x2 i2
  | .srl r1 x2 i2 => long 0xEC r1 x2 i2
  | .srql r1 x2 i2 => long 0xE8 r1 x2 i2
  | .rll r1 x2 i2 => long 0xEB r1 x2 i2
  | .rrl r1 x2 i2 => long 0xEA r1 x2 i2
  | .slha r1 x2 i2 => long 0xCF r1 x2 i2
  | .sla r1 x2 i2 => long 0xEF r1 x2 i2
  | .slqa r1 x2 i2 => long 0xE9 r1 x2 i2
  | .srha r1 x2 i2 => long 0xCE r1 x2 i2
  | .sra r1 x2 i2 => long 0xEE r1 x2 i2
  | .srqa r1 x2 i2 => srqaOp.bind fun op => long op r1 x2 i2
  | .btbs m1 n => short 0x20 m1 n
  | .btfs m1 n => short 0x21 m1 n
  | .btcr m1 r2 => short 0x02 m1 r2
  | .btc m1 x2 a2 => long 0x42 m1 x2 a2
  | .bfbs m1 n => short 0x22 m1 n
  | .bffs m1 n => short 0x23 m1 n
  | .bfcr m1 r2 => short 0x03 m1 r2
  | .bfc m1 x2 a2 => long 0x43 m1 x2 a2
  | .bxh r1 x2 i2 => long 0xC0 r1 x2 i2
  | .bxle r1 x2 i2 => long 0xC1 r1 x2 i2
  | .balr r1 r2 => short 0x01 r1 r2
  | .bal r1 x2 a2 => long 0x41 r1 x2 a2
  | .ler r1 r2 => short 0x28 r1 r2
  | .le r1 x2 a2 => long 0x68 r1 x2 a2
  | .ste r1 x2 a2 => long 0x60 r1 x2 a2
  | .aer r1 r2 => short 0x2A r1 r2
  | .ae r1 x2 a2 => long 0x6A r1 x2 a2
  | .ser r1 r2 => short 0x2B r1 r2
  | .se r1 x2 a2 => long 0x6B r1 x2 a2
  | .cer r1 r2 => short 0x29 r1 r2
  | .ce r1 x2 a2 => long 0x69 r1 x2 a2
  | .mer r1 r2 => short 0x2C r1 r2
  | .me r1 x2 a2 => long 0x6C r1 x2 a2
  | .der r1 r2 => short 0x2D r1 r2
  | .de r1 x2 a2 => long 0x6D r1 x2 a2
  | .lpsw r1 x2 i2 => long 0xC2 r1 x2 i2
  | .epor r1 r2 => short 0x2E r1 r2
  | .eppr r1 r2 => short 0x2F r1 r2
  | .epsr r1 r2 => short 0x95 r1 r2
  | .sint r1 x2 i2 => long 0xE2 r1 x2 i2
  | .svc r1 x2 i2 => long 0xE1 r1 x2 i2
  | .air r1 r2 => short 0x9F r1 r2
  | .ai r1 x2 a2 => long 0xDF r1 x2 a2
  | .ssr r1 r2 => short 0x9D r1 r2
  | .ss r1 x2 a2 => long 0xDD r1 x2 a2
  | .ocr r1 r2 => short 0x9E r1 r2
  | .oc r1 x2 a2 => long 0xDE r1 x2 a2
  | .rdr r1 r2 => short 0x9B r1 r2
  | .rd r1 x2 a2 => long 0xDB r1 x2 a2
  | .wdr r1 r2 => short 0x9A r1 r2
  | .wd r1 x2 a2 => long 0xDA r1 x2 a2
  | .al r1 x2 a2 => long 0xD5 r1 x2 a2
  | .rhr r1 r2 => short 0x99 r1 r2
  | .rh r1 x2 a2 => long 0xD9 r1 x2 a2
  | .whr r1 r2 => short 0x98 r1 r2
  | .wh r1 x2 a2 => long 0xD8 r1 x2 a2
  | .rbr r1 r2 => short 0x97 r1 r2
  | .rb r1 x2 a2 => long 0xD7 r1 x2 a2
  | .wbr r1 r2 => short 0x96 r1 r2
  | .wb r1 x2 a2 => long 0xD6 r1 x2 a2
  | .atl r1 x2 a2 => long 0x64 r1 x2 a2
  | .abl r1 x2 a2 => long 0x65 r1 x2 a2
  | .rtl r1 x2 a2 => long 0x66 r1 x2 a2
  | .rbl r1 x2 a2 => long 0x67 r1 x2 a2
  | .ecpr r1 r2 => short 0x80 r1 r2
  | .cosr r1 r2 => short 0x81 r1 r2
  | .cos r1 x2 a2 => long 0xF1 r1 x2 a2
  | .asnr r1 r2 => short 0x84 r1 r2
  | .asn r1 x2 a2 => long 0xF4 r1 x2 a2
  | .atnr r1 r2 => atnrOp.bind fun op => short op r1 r2
  | .atn r1 x2 a2 => long 0xF2 r1 x2 a2
  | .sqdr r1 r2 => sqdrOp.bind fun op => short op r1 r2
  | .sqd r1 x2 a2 => long 0xF3 r1 x2 a2
  | .sesb r1 x2 i2 => long 0xE4 r1 x2 i2
  | .resb r1 x2 i2 => long 0xE3 r1 x2 i2
  | .lchr r1 r2 => short 0x12 r1 r2
  | .lch r1 x2 a2 => long 0x53 r1 x2 a2
  | .lcnhr r1 r2 => short 0x10 r1 r2
  | .lcnh r1 x2 a2 => long 0x51 r1 x2 a2
  | .lavr r1 r2 => short 0x11 r1 r2
  | .lav r1 x2 a2 => long 0x52 r1 x2 a2
  | .lfr r1 r2 => short 0x38 r1 r2
  | .lf r1 x2 a2 => long 0x78 r1 x2 a2
  | .stf r1 x2 a2 => long 0x70 r1 x2 a2
  | .afr r1 r2 => short 0x3A r1 r2
  | .af r1 x2 a2 => long 0x7A r1 x2 a2
  | .sfr r1 r2 => short 0x3B r1 r2
  | .sf r1 x2 a2 => long 0x7B r1 x2 a2
  | .cfr r1 r2 => short 0x39 r1 r2
  | .cf r1 x2 a2 => long 0x79 r1 x2 a2
  | .mfr r1 r2 => short 0x3C r1 r2
  | .mf r1 x2 a2 => long 0x7C r1 x2 a2
  | .dfr r1 r2 => short 0x3D r1 r2
  | .df r1 x2 a2 => long 0x7D r1 x2 a2

/-- The encoding of an instruction: none where its option is not fitted (49_list_trig_augment.md R416, R430). -/
def encode (ps : Params) (i : Instr) : Option Encoding := (listed i).filter fun e => fitted ps (opField e.first)

end Sys2Proof
end

