-- ==== Sys2Proof/Machine/State.lean ====
section
/-! DEFINITION. The state of the machine as plain data (10_state.md, 70_reset_and_hazards.md R531), the reasons a step
can stop, and the state after reset. -/

namespace Sys2Proof.Machine

/-- The Condition Code, PSW(12:15) (10_state.md R31). -/
structure Cc where
  /-- Carry: mask weight 8. -/
  c : Bool
  /-- Overflow: mask weight 4. -/
  v : Bool
  /-- Greater than: mask weight 2. -/
  g : Bool
  /-- Less than: mask weight 1. -/
  l : Bool
  deriving DecidableEq, Repr

/-- The Program Status Word (10_state.md R25, R26). It has no reserved bit. -/
structure Psw where
  /-- Bit 0: the wait state. -/
  wait : Bool
  /-- Bit 1: External, and with bit 4 Immediate, interrupts enabled. -/
  extEn : Bool
  /-- Bit 2: Machine Malfunction interrupt enabled. -/
  mmEn : Bool
  /-- Bit 3: Fixed-Point Divide Fault interrupt enabled. -/
  fdfEn : Bool
  /-- Bit 4: Automatic I/O Service enabled, with bit 1. -/
  aioEn : Bool
  /-- Bit 5: Floating-Point Arithmetic Fault interrupt enabled. -/
  fpfEn : Bool
  /-- Bit 6: Channel Termination interrupt enabled. -/
  ctEn : Bool
  /-- Bit 7: Protect Mode; reset is Supervisor Mode. -/
  prot : Bool
  /-- Bits 8:9: the bank of instruction fetch. -/
  pbank : Bank
  /-- Bits 10:11: the bank of memory operands. -/
  obank : Bank
  /-- Bits 12:15: the Condition Code. -/
  cc : Cc
  /-- Bits 16:31: the Location Counter. -/
  lc : Word
  deriving DecidableEq, Repr

/-- A device controller holding an interrupt request (10_state.md R38, 60_exceptions.md R474). -/
structure Request where
  /-- Its place on the acknowledge chain, 0 nearest the processor. -/
  chain : Nat
  /-- Its device number. -/
  device : Byte
  /-- The status byte it gives with the acknowledge. -/
  status : Byte
  deriving DecidableEq, Repr

/-- A device's answer to one bus operation of 48_io.md R363. -/
structure Reply where
  /-- The device that gives it. -/
  device : Byte
  /-- No synchronize signal came: the operation timed out. -/
  timeout : Bool
  /-- The device cannot complete a command. -/
  cannot : Bool
  /-- The data: a halfword, or a byte in its right half. -/
  data : Word
  /-- The status byte that goes with it. -/
  status : Byte
  deriving DecidableEq, Repr

/-- An operation performed on the I/O Mux Bus (48_io.md R363). -/
inductive BusOp where
  /-- The status of a device is sensed. -/
  | sense (device : Byte)
  /-- A command byte is sent. -/
  | command (device value : Byte)
  /-- A data byte is read. -/
  | readByte (device : Byte)
  /-- A data byte is sent. -/
  | writeByte (device value : Byte)
  /-- A data halfword is read. -/
  | readHalf (device : Byte)
  /-- A data halfword is sent. -/
  | writeHalf (device : Byte) (value : Word)
  deriving DecidableEq, Repr

/-- The modes of the processor (10_state.md R42, 60_exceptions.md R480). Supervisor mode, Protect mode and the Wait
state are PSW states of `running`. -/
inductive PowerMode where
  /-- Operational: Supervisor, Protect or Wait by the PSW. -/
  | running
  /-- Start-up, until the start-up sequence has been performed (R482). -/
  | startUp
  /-- Program load from the I/O Mux Bus, until the loading sequence is complete (R482). -/
  | programLoad
  /-- Restart, until the registers and the PSW are restored (R487). -/
  | restart
  /-- After the power down sequence (R485). -/
  | powerDown
  /-- Memory supplies only (R486). -/
  | standBy
  /-- Memory not retained (R481). -/
  | powerOff
  deriving DecidableEq, Repr

/-- The end of the termination queue that a channel uses (60_exceptions.md R473). -/
inductive QueueEnd where
  | top
  | bottom
  deriving DecidableEq, Repr

/-- The host events of 60_exceptions.md R459. -/
inductive HostEvent where
  /-- A controller raises its request. -/
  | request (r : Request)
  /-- The controller at a chain position drops its request. -/
  | dropRequest (chain : Nat)
  /-- The device side gets one more answer ready. -/
  | reply (r : Reply)
  /-- A parity error on an instruction read. -/
  | parityInstr
  /-- A parity error on an operand read. -/
  | parityOperand
  /-- The setting of the Advance Power Failure signal. -/
  | advancePowerFailure
  /-- The hardware power down sequence. -/
  | powerDown
  /-- The main supply is shut down, the memory supply left on. -/
  | standBy
  /-- The memory supply fails. -/
  | powerOff
  /-- Power is restored, with memory valid or not. -/
  | powerRestore (valid : Bool)
  /-- The program load signal. -/
  | programLoad
  /-- A channel delivers a termination pointer. -/
  | channelTerminate (pointer : Word) (queueEnd : QueueEnd)
  /-- A DMA write of one byte. -/
  | dmaWrite (bank : Bank) (addr : Word) (value : Byte)
  /-- One millisecond of the clocks. -/
  | tick
  deriving DecidableEq, Repr

/-- Why the machine stops with a fault. There is no such reason: every fault of this machine is an interrupt that the
step takes, and it has no halt (60_exceptions.md R456, R488). -/
inductive Fault where
  deriving DecidableEq, Repr

/-- Why a step has no meaning. -/
inductive Refusal where
  /-- An instruction without a meaning here. No instruction answers with it. Safe. -/
  | notModelled (mnemonic : String)
  /-- A halfword, fullword or floating-point operand at an odd address (20_memory.md R67). Raised by every such
  access. Safe. -/
  | oddAddress
  /-- An instruction fetch at an odd Location Counter (20_memory.md R67). Raised by the fetch. Safe. -/
  | oddFetch
  /-- An access to an address with no memory (20_memory.md R61, 92_eei_decisions.md D4). Raised by operand accesses,
  instruction fetch and the structures reached through a pointer. Safe. -/
  | absentMemory
  /-- A floating-point operand that is not normalised (46_floating_point.md R304, 93_implementation_defined.md U3).
  Raised by floating-point add, subtract, compare, multiply and divide. Safe. -/
  | notNormalised
  /-- A register field that breaks its instruction's restriction (10_state.md R22). Raised by the instructions that
  have one. Safe. -/
  | registerField
  /-- A must-be-zero field that is not zero (30_encoding.md R105). Raised by LPSW, SINT, AL, SESB, RESB. Safe. -/
  | mustBeZero
  /-- A Service Pointer that asks for Automatic I/O Channel service (60_exceptions.md R470). Raised by SINT and the
  Immediate Interrupt. Safe. -/
  | channelService
  /-- A circular list whose header is inconsistent (49_list_trig_augment.md R401). Raised by the list instructions
  and channel termination. Safe. -/
  | listHeader
  /-- An operation code that may be one of the three the source has lost (30_encoding.md R113). Raised by the fetch.
  Safe. -/
  | lostOpcode (op : Byte)
  deriving DecidableEq, Repr

/-- The whole machine, and its environment's scripts. -/
structure State where
  /-- General registers 0 to 15 (10_state.md R20). -/
  regs : Vector Word 16
  /-- The Program Status Word (10_state.md R25). -/
  psw : Psw
  /-- The CORDIC precision register (10_state.md R34). -/
  cpr : Word
  /-- Memory: physical address (bank * 65536 + address) and byte, addresses strictly rising, no zero byte listed
  (20_memory.md R60). -/
  mem : List Host.Cell
  /-- Advance Power Failure pending (60_exceptions.md R460). -/
  apfPending : Bool
  /-- A parity error on an instruction read is signalled (60_exceptions.md R460). -/
  parityInstr : Bool
  /-- A parity error on an operand read is signalled (60_exceptions.md R460). -/
  parityOperand : Bool
  /-- The mode (10_state.md R42). -/
  power : PowerMode
  /-- The Memory Operational Indicator (10_state.md R42, 60_exceptions.md R481, R482). -/
  memOperational : Bool
  /-- The Real-Time clock in milliseconds (10_state.md R41). -/
  rtc : Nat
  /-- The Elapsed Time clock in milliseconds (10_state.md R41). -/
  etc : Int
  /-- The requesting controllers, in acknowledge-chain order (60_exceptions.md R474). -/
  requests : List Request
  /-- The device answers still to come, each device's in its order; a device with none left gives a free value
  (48_io.md R363, log 18). -/
  replies : List Reply
  /-- The bus operations performed, newest first (48_io.md R363, log 18). -/
  bus : List BusOp
  /-- The host events still to come, one list for each boundary (60_exceptions.md R459, log 42). -/
  arrivals : List (List HostEvent)
  /-- How many draws of free values have been made (log 8). The model's own field. -/
  draws : Nat
  /-- The parameters the machine is built with (00_scope.md R6). No step changes them. The model's own field. -/
  params : Params
  deriving DecidableEq, Repr

/-- The PSW at reset: every bit 0. DESIGN CHOICE, unsafe (log 1): the spec gives none (70_reset_and_hazards.md R531). -/
def Psw.reset : Psw :=
  { wait := false, extEn := false, mmEn := false, fdfEn := false, aioEn := false, fpfEn := false, ctEn := false,
    prot := false, pbank := 0, obank := 0, cc := ⟨false, false, false, false⟩, lc := 0 }

/-- The machine after start-up (70_reset_and_hazards.md R531). Registers, PSW, CPR, clocks and the Memory Operational
Indicator: DESIGN CHOICE, unsafe (log 1, 2, 29, 36); memory with nothing listed (log 3); the default parameters (log 4,
17, 47); nothing pending; no device request, answer or host event. -/
def State.reset : State :=
  { regs := Vector.replicate 16 0, psw := Psw.reset, cpr := 0x0010, mem := [], apfPending := false,
    parityInstr := false, parityOperand := false, power := .running, memOperational := true, rtc := 0, etc := 0,
    requests := [], replies := [], bus := [], arrivals := [], draws := 0, params := Params.default }

end Sys2Proof.Machine
end

