-- ==== Sys2Proof/Machine/Ops.lean ====
section
/-! DEFINITION. The named operations: memory, registers, the PSW, free values, and the PSW exchange by which every
interrupt is taken (60_exceptions.md R455), with the return from one beside it. -/

namespace Sys2Proof.Machine

/-- What a step, or a part of one, answers. -/
abbrev Out := Host.Outcome State Fault Refusal

/-- Go on from a next state; a fault or a refusal stands. -/
def andThen (o : Out) (k : State → Out) : Out :=
  match o with
  | .next s => k s
  | .fault f => .fault f
  | .refused r => .refused r

/-- A field restriction (30_encoding.md R109 step 6): refused by the name given when it is broken. -/
def require (ok : Bool) (r : Refusal) (out : Out) : Out := if ok then out else .refused r

/-! ### Memory as a list of cells -/

/-- What an address that is not listed reads as. DESIGN CHOICE, unsafe (log 3). -/
def unlisted : Byte := 0

/-- The byte at a physical address. -/
def memByte : List Host.Cell → Nat → Byte
  | [], _ => unlisted
  | (q, b) :: rest, p => if q = p then b else memByte rest p

/-- A cell in front of a list, left out when it holds what an unlisted address reads as. -/
def consCell (p : Nat) (b : Byte) (rest : List Host.Cell) : List Host.Cell :=
  if b = unlisted then rest else (p, b) :: rest

/-- Write one byte, keeping the canonical form. -/
def memWrite : List Host.Cell → Nat → Byte → List Host.Cell
  | [], p, b => consCell p b []
  | (q, v) :: rest, p, b =>
    if p < q then consCell p b ((q, v) :: rest)
    else if p = q then consCell p b rest
    else (q, v) :: memWrite rest p b

/-- How many bytes the four banks hold (20_memory.md R60). -/
def memBytes : Nat := 262144

/-- The canonical form from a least address on: addresses strictly rising and below the size of memory, no byte
equal to what an unlisted address reads as. -/
def memWfFrom : Nat → List Host.Cell → Bool
  | _, [] => true
  | lo, (p, b) :: rest => decide (lo ≤ p) && decide (p < memBytes) && !(b == unlisted) && memWfFrom (p + 1) rest

/-- The canonical form of memory. -/
def Memory.wf (m : List Host.Cell) : Bool := memWfFrom 0 m

/-! ### Memory access -/

/-- The byte at bank and address (20_memory.md R62). -/
def State.byteAt (s : State) (b : Bank) (a : Word) : Byte := memByte s.mem (phys b a)

/-- The halfword at an address: the byte there is the more significant (20_memory.md R62). -/
def State.halfAt (s : State) (b : Bank) (a : Word) : Word := s.byteAt b a ++ s.byteAt b (a + 1)

/-- The fullword at an address: two halfwords, the second at the address plus two modulo 65,536 (20_memory.md R68). -/
def State.fullAt (s : State) (b : Bank) (a : Word) : Full := s.halfAt b a ++ s.halfAt b (a + 2)

/-- Store one byte; nothing else changes (20_memory.md R64). -/
def State.setByte (s : State) (b : Bank) (a : Word) (v : Byte) : State :=
  { s with mem := memWrite s.mem (phys b a) v }

/-- Store a halfword, its left byte at the address (20_memory.md R62). -/
def State.setHalf (s : State) (b : Bank) (a : Word) (v : Word) : State :=
  (s.setByte b a (v.extractLsb' 8 8)).setByte b (a + 1) (v.extractLsb' 0 8)

/-- Store a fullword: its left halfword at the address, then the other two bytes on (20_memory.md R68). -/
def State.setFull (s : State) (b : Bank) (a : Word) (v : Full) : State :=
  (s.setHalf b a (v.extractLsb' 16 16)).setHalf b (a + 2) (v.extractLsb' 0 16)

/-- Whether an address is a multiple of two (20_memory.md R66). -/
def evenAddr (a : Word) : Bool := a.getLsbD 0 == false

/-- Whether the byte at an address is memory (20_memory.md R61). -/
def State.bytePresent (s : State) (b : Bank) (a : Word) : Bool := memPresent s.params b a

/-- Whether the two bytes of a halfword are memory (20_memory.md R61). -/
def State.halfPresent (s : State) (b : Bank) (a : Word) : Bool := s.bytePresent b a && s.bytePresent b (a + 1)

/-- The check before a byte access (20_memory.md R61). -/
def State.guardByte (s : State) (b : Bank) (a : Word) (out : Out) : Out := require (s.bytePresent b a) .absentMemory out

/-- The checks before a halfword access: an even address (20_memory.md R67) that is memory (R61). -/
def State.guardHalf (s : State) (b : Bank) (a : Word) (out : Out) : Out :=
  require (evenAddr a) .oddAddress (require (s.halfPresent b a) .absentMemory out)

/-- The checks before `n` halfword accesses at rising addresses (40_load_store.md R150, R158). -/
def State.guardHalves (s : State) (b : Bank) : Nat → Word → Out → Out
  | 0, _, out => out
  | n + 1, a, out => s.guardHalf b a (s.guardHalves b n (a + 2) out)

/-- The checks before a fullword access (20_memory.md R67, R68). -/
def State.guardFull (s : State) (b : Bank) (a : Word) (out : Out) : Out := s.guardHalves b 2 a out

/-- MemReadB (00_scope.md R13). -/
def State.readByte (s : State) (b : Bank) (a : Word) (k : Byte → Out) : Out := s.guardByte b a (k (s.byteAt b a))

/-- MemReadH (00_scope.md R13). -/
def State.readHalf (s : State) (b : Bank) (a : Word) (k : Word → Out) : Out := s.guardHalf b a (k (s.halfAt b a))

/-- MemReadF (00_scope.md R13). -/
def State.readFull (s : State) (b : Bank) (a : Word) (k : Full → Out) : Out := s.guardFull b a (k (s.fullAt b a))

/-- MemWriteB (00_scope.md R13). -/
def State.writeByte (s : State) (b : Bank) (a : Word) (v : Byte) : Out := s.guardByte b a (.next (s.setByte b a v))

/-- MemWriteH (00_scope.md R13). -/
def State.writeHalf (s : State) (b : Bank) (a : Word) (v : Word) : Out := s.guardHalf b a (.next (s.setHalf b a v))

/-- MemWriteF (00_scope.md R13). -/
def State.writeFull (s : State) (b : Bank) (a : Word) (v : Full) : Out := s.guardFull b a (.next (s.setFull b a v))

/-! ### General registers -/

/-- x[r] (00_scope.md R11). No register is hardwired. -/
def State.reg (s : State) (r : Nibble) : Word := s.regs[r.toNat]'r.isLt

/-- x[r] <- v (00_scope.md R11). -/
def State.setReg (s : State) (r : Nibble) (v : Word) : State := { s with regs := s.regs.set r.toNat v r.isLt }

/-- xp[r]: two registers, the first most significant (00_scope.md R11). -/
def State.pair (s : State) (r : Nibble) : Full := s.reg r ++ s.reg (r + 1)

/-- xp[r] <- v (00_scope.md R11). -/
def State.setPair (s : State) (r : Nibble) (v : Full) : State :=
  (s.setReg r (v.extractLsb' 16 16)).setReg (r + 1) (v.extractLsb' 0 16)

/-- xq[r]: four registers, the first most significant (00_scope.md R11). -/
def State.quad (s : State) (r : Nibble) : Quad := s.pair r ++ s.pair (r + 2)

/-- xq[r] <- v (00_scope.md R11). -/
def State.setQuad (s : State) (r : Nibble) (v : Quad) : State :=
  (s.setPair r (v.extractLsb' 32 32)).setPair (r + 2) (v.extractLsb' 0 32)

/-! ### Floating-point registers -/

/-- Floating-point register r is at bank 0, byte address 2r (10_state.md R33, log 15). -/
def fpAddr (r : Nibble) : Word := (r.setWidth 16) <<< 1

/-- f[r] (10_state.md R33). The register area always holds memory (R456). -/
def State.fpReg (s : State) (r : Nibble) : Full := s.fullAt 0 (fpAddr r)

/-- f[r] <- v (10_state.md R33). -/
def State.setFpReg (s : State) (r : Nibble) (v : Full) : State := s.setFull 0 (fpAddr r) v

/-! ### The Program Status Word -/

/-- PSW(0:7): the control bits (10_state.md R26). -/
def Psw.control (p : Psw) : Byte :=
  BitVec.ofBool p.wait ++ BitVec.ofBool p.extEn ++ BitVec.ofBool p.mmEn ++ BitVec.ofBool p.fdfEn ++
    BitVec.ofBool p.aioEn ++ BitVec.ofBool p.fpfEn ++ BitVec.ofBool p.ctEn ++ BitVec.ofBool p.prot

/-- PSW(12:15) (10_state.md R31). -/
def Cc.bits (cc : Cc) : Nibble :=
  BitVec.ofBool cc.c ++ BitVec.ofBool cc.v ++ BitVec.ofBool cc.g ++ BitVec.ofBool cc.l

/-- STATUS = PSW(0:15) (00_scope.md R12), bit 0 most significant (10_state.md R26). -/
def Psw.status (p : Psw) : Word := p.control ++ p.pbank ++ p.obank ++ p.cc.bits

/-- PSW(0:7) <- b, PSW(8:31) kept (10_state.md R27). -/
def Psw.withControl (p : Psw) (b : Byte) : Psw :=
  { p with wait := b.getMsbD 0, extEn := b.getMsbD 1, mmEn := b.getMsbD 2, fdfEn := b.getMsbD 3,
           aioEn := b.getMsbD 4, fpfEn := b.getMsbD 5, ctEn := b.getMsbD 6, prot := b.getMsbD 7 }

/-- STATUS <- w: all sixteen bits, the Location Counter kept (00_scope.md R12). -/
def Psw.withStatus (p : Psw) (w : Word) : Psw :=
  { wait := w.getMsbD 0, extEn := w.getMsbD 1, mmEn := w.getMsbD 2, fdfEn := w.getMsbD 3,
    aioEn := w.getMsbD 4, fpfEn := w.getMsbD 5, ctEn := w.getMsbD 6, prot := w.getMsbD 7,
    pbank := w.extractLsb' 6 2, obank := w.extractLsb' 4 2,
    cc := { c := w.getMsbD 12, v := w.getMsbD 13, g := w.getMsbD 14, l := w.getMsbD 15 },
    lc := p.lc }

/-- LC <- a: PSW(0:15) kept (00_scope.md R16). -/
def Psw.withLc (p : Psw) (a : Word) : Psw := { p with lc := a }

/-- STATUS <- w. -/
def State.setStatus (s : State) (w : Word) : State := { s with psw := s.psw.withStatus w }

/-- LC <- a (00_scope.md R16). -/
def State.setLc (s : State) (a : Word) : State := { s with psw := s.psw.withLc a }

/-- CC <- cc (00_scope.md R12). -/
def State.setCc (s : State) (cc : Cc) : State := { s with psw := { s.psw with cc := cc } }

/-- The address of the next sequential instruction, `len` bytes on, modulo 65,536 (00_scope.md R16). -/
def State.nextLc (s : State) (len : Word) : Word := s.psw.lc + len

/-- pc <- next (00_scope.md R16). -/
def State.advance (s : State) (len : Word) : State := s.setLc (s.nextLc len)

/-! ### Free values -/

/-- A free fullword of the current draw (00_scope.md R18, log 8). -/
def State.freeFull (s : State) (lane : Nat) : Full := Config.free s.draws lane

/-- Free bit `i` of lane 0 of the current draw. -/
def State.freeBit (s : State) (i : Nat) : Bool := (s.freeFull 0).getLsbD i

/-- Arbitrary contents of memory, in the canonical form (70_reset_and_hazards.md R531, log 36). -/
def State.freeMemory (s : State) : List Host.Cell :=
  (Config.image s.draws).foldl (fun m c => memWrite m (phys c.1 c.2.1) c.2.2) []

/-- The current draw is spent. -/
def State.drawn (s : State) : State := { s with draws := s.draws + 1 }

/-! ### Taking an interrupt and returning from one -/

/-- Exchange(old, new, lc) (60_exceptions.md R455): the status and the given Location Counter are stored at `old`,
then the status and the Location Counter are loaded from `new`, all in bank 0. The fixed locations always hold memory
and are even (60_exceptions.md R456). -/
def State.exchange (s : State) (old new lc : Word) : State :=
  let t := (s.setHalf 0 old s.psw.status).setHalf 0 (old + 2) lc
  (t.setStatus (t.halfAt 0 new)).setLc (t.halfAt 0 (new + 2))

/-- raise IllegalInstruction (60_exceptions.md R466): Old PSW 30, New PSW 34, the instruction's own address. -/
def State.raiseIllegal (s : State) : State := s.exchange 0x0030 0x0034 s.psw.lc

/-- raise ProtectMode (60_exceptions.md R467): the locations of Illegal Instruction, the instruction's own address. -/
def State.raiseProtect (s : State) : State := s.exchange 0x0030 0x0034 s.psw.lc

/-- raise FixedPointDivideFault (60_exceptions.md R462): Old PSW 48, New PSW 4C, the given next address. -/
def State.raiseDivide (s : State) (next : Word) : State := s.exchange 0x0048 0x004C next

/-- raise FloatingPointFault (60_exceptions.md R464): Old PSW 28, New PSW 2C, the given next address. -/
def State.raiseFloat (s : State) (next : Word) : State := s.exchange 0x0028 0x002C next

/-- raise ChannelTermination (60_exceptions.md R471): Old PSW 82, New PSW 86. -/
def State.raiseChannel (s : State) : State := s.exchange 0x0082 0x0086 s.psw.lc

/-- raise QueueOverflow (60_exceptions.md R473): Old PSW 8C, New PSW 90. -/
def State.raiseOverflow (s : State) : State := s.exchange 0x008C 0x0090 s.psw.lc

/-- raise External (60_exceptions.md R468): Old PSW 40, New PSW 44. -/
def State.raiseExternal (s : State) : State := s.exchange 0x0040 0x0044 s.psw.lc

/-- raise MachineMalfunction (60_exceptions.md R460): Old PSW 38, New PSW 3C; the caller sets the cause flag. -/
def State.raiseMalfunction (s : State) : State := s.exchange 0x0038 0x003C s.psw.lc

/-- The Supervisor Call procedure (47_system_control.md R346): the pointer to 94, the Old PSW to 96 to 99, the status
from 9A, the Location Counter from the table at 9C. -/
def State.supervisorCall (s : State) (kind : Nibble) (pointer next : Word) : State :=
  let t := ((s.setHalf 0 0x0094 pointer).setHalf 0 0x0096 s.psw.status).setHalf 0 0x0098 next
  (t.setStatus (t.halfAt 0 0x009A)).setLc (t.halfAt 0 (0x009C + (kind.setWidth 16) <<< 1))

/-- The Service Pointer of a device: the halfword at D0 + 2d of bank 0 (20_memory.md R73). -/
def State.servicePointer (s : State) (device : Byte) : Word := s.halfAt 0 (0x00D0 + (device.setWidth 16) <<< 1)

/-- The Immediate Interrupt entry through an even Service Pointer `sp` (60_exceptions.md R470): the Old PSW at sp, the
new status from sp + 4, the Location Counter the number sp + 6. -/
def State.immediateEntry (s : State) (sp lc : Word) : State :=
  let t := (s.setHalf 0 sp s.psw.status).setHalf 0 (sp + 2) lc
  (t.setStatus (t.halfAt 0 (sp + 4))).setLc (sp + 6)

/-- ServicePointerAction(d, lc) (60_exceptions.md R470): a Service Pointer whose bit 15 is set asks for a channel and
is refused (log 20). -/
def State.serviceAction (s : State) (device : Byte) (lc : Word) : Out :=
  let sp := s.servicePointer device
  require (evenAddr sp) .channelService (s.guardHalves 0 3 sp (.next (s.immediateEntry sp lc)))

/-- Load the whole PSW (47_system_control.md R341): the return from an interrupt (60_exceptions.md R458). -/
def State.loadPsw (s : State) (w : Full) : State :=
  (s.setStatus (w.extractLsb' 16 16)).setLc (w.extractLsb' 0 16)

/-- The start of a privileged instruction (30_encoding.md R109 step 5, 60_exceptions.md R476): in Protect Mode the
interrupt is taken and nothing else happens. -/
def State.privileged (s : State) (out : Out) : Out := if s.psw.prot then .next s.raiseProtect else out

/-! ### The termination queue -/

/-- The address of the termination queue: the halfword at QPTR_LOC (60_exceptions.md R472). -/
def State.queueAddr (s : State) : Word := s.halfAt 0 s.params.qptrLoc

/-- QueueNonEmpty (60_exceptions.md R472): the list's used count, at the Queue Pointer plus one, is not zero. -/
def State.queueNonEmpty (s : State) : Bool := !(s.byteAt 0 (s.queueAddr + 1) == 0)

/-- The checks of the two reads of QueueNonEmpty (60_exceptions.md R472), where PSW bit 6 asks for it. -/
def State.guardQueue (s : State) (out : Out) : Out :=
  if s.psw.ctEn then s.guardHalf 0 s.params.qptrLoc (s.guardByte 0 (s.queueAddr + 1) out) else out

/-- The examination that ends LPSW and EPSR (47_system_control.md R341, R344): bit 6 of the new PSW and an entry in
the queue raise Channel Termination. -/
def State.examineQueue (s : State) : Out :=
  s.guardQueue (.next (if s.psw.ctEn && s.queueNonEmpty then s.raiseChannel else s))

end Sys2Proof.Machine
end

