-- ==== Sys2Proof/Machine/Operands.lean ====
section
/-! DEFINITION. The operand forms: indexing, effective addresses, immediates, short operands, shift counts and branch
targets (30_encoding.md R104 to R108, 45_branch.md R281, 44_shift_rotate.md R251). -/

namespace Sys2Proof.Machine

/-- The length of a halfword instruction in bytes (30_encoding.md R102). -/
abbrev len2 : Word := 2

/-- The length of a fullword instruction in bytes (30_encoding.md R102). -/
abbrev len4 : Word := 4

/-- XV: the index value, 0 when X2 is 0 (30_encoding.md R106). -/
def State.index (s : State) (x2 : Nibble) : Word := if x2 = 0 then 0 else s.reg x2

/-- EA and OP2: the second halfword plus the index, modulo 65,536 (30_encoding.md R107). -/
def State.ea (s : State) (x2 : Nibble) (a2 : Word) : Word := a2 + s.index x2

/-- The short operand, extended with zeros (30_encoding.md R107). -/
def shortValue (n : Nibble) : Word := n.setWidth 16

/-- The memory halfword of an RX instruction: OBANK:EA (20_memory.md R65). -/
def State.operandHalf (s : State) (x2 : Nibble) (a2 : Word) (k : Word → Out) : Out :=
  s.readHalf s.psw.obank (s.ea x2 a2) k

/-- The memory fullword of an RX instruction: OBANK:EA (20_memory.md R65). -/
def State.operandFull (s : State) (x2 : Nibble) (a2 : Word) (k : Full → Out) : Out :=
  s.readFull s.psw.obank (s.ea x2 a2) k

/-- The memory byte of an RX instruction: OBANK:EA (20_memory.md R65). -/
def State.operandByte (s : State) (x2 : Nibble) (a2 : Word) (k : Byte → Out) : Out :=
  s.readByte s.psw.obank (s.ea x2 a2) k

/-- Two memory fullwords of an RX instruction, at EA and EA + 4 (49_list_trig_augment.md R421). -/
def State.operandTwo (s : State) (x2 : Nibble) (a2 : Word) (k : Full → Full → Out) : Out :=
  s.readFull s.psw.obank (s.ea x2 a2) fun p => s.readFull s.psw.obank (s.ea x2 a2 + 4) fun q => k p q

/-- Bits 8:15 of a halfword: the byte operand of a register (43_byte.md R240). -/
def lowByte (w : Word) : Byte := w.extractLsb' 0 8

/-- Bits 0:7 of a halfword. -/
def highByte (w : Word) : Byte := w.extractLsb' 8 8

/-- A byte in bits 8:15 with bits 0:7 zero (43_byte.md R241). -/
def byteWord (b : Byte) : Word := b.setWidth 16

/-- The device a register names: bits 8:15 (48_io.md R360). -/
def State.device (s : State) (r1 : Nibble) : Byte := lowByte (s.reg r1)

/-- The shift count of the halfword shifts: OP2 bits 12:15 (44_shift_rotate.md R251). -/
def count4 (op2 : Word) : Nat := op2.toNat % 16

/-- The shift count of the fullword shifts and rotates: OP2 bits 11:15 (44_shift_rotate.md R251). -/
def count5 (op2 : Word) : Nat := op2.toNat % 32

/-- The shift count of the doubleword shifts: OP2 bits 10:15 (44_shift_rotate.md R251). -/
def count6 (op2 : Word) : Nat := op2.toNat % 64

/-- The backward short branch target: pc - 2N, modulo 65,536 (45_branch.md R281). -/
def State.backward (s : State) (n : Nibble) : Word := s.psw.lc - 2 * shortValue n

/-- The forward short branch target: pc + 2N, modulo 65,536 (45_branch.md R281). -/
def State.forward (s : State) (n : Nibble) : Word := s.psw.lc + 2 * shortValue n

/-- Whether the mask meets the Condition Code: C 8, V 4, G 2, L 1 (45_branch.md R280). -/
def Cc.meets (cc : Cc) (m1 : Nibble) : Bool :=
  (cc.c && m1.getMsbD 0) || (cc.v && m1.getMsbD 1) || (cc.g && m1.getMsbD 2) || (cc.l && m1.getMsbD 3)

/-- The new CORDIC precision register value that a register asks for (49_list_trig_augment.md R417). -/
def cprValue (w : Word) : Word := 0x0010 ||| (0x001C &&& w)

end Sys2Proof.Machine
end

