-- ==== Sys2Proof/Machine/Flags.lean ====
section
/-! DEFINITION. The Condition Code computations, each from its chart's equations (00_scope.md R10). A bit the chart
prints X is a free bit of the current draw (log 9). -/

namespace Sys2Proof.Machine

/-- V and C undefined, G and L from the sign of the value: the loads (40_load_store.md R140) and the logical
operations (42_logical_compare.md R210). `c`, `v` are free. -/
def signCc {w : Nat} (c v : Bool) (x : BitVec w) : Cc :=
  { c := c, v := v, g := decide (0 < x.toInt), l := decide (x.toInt < 0) }

/-- CC <- LoadCC(v) (40_load_store.md R140) and CC <- LogicCC(r) (42_logical_compare.md R210). -/
def State.loadCc {w : Nat} (s : State) (x : BitVec w) : Cc := signCc (s.freeBit 0) (s.freeBit 1) x

/-- A result and the flags that go with it. -/
structure Flagged (w : Nat) where
  /-- The result. -/
  value : BitVec w
  /-- The Condition Code. -/
  cc : Cc

/-- Whether an integer is outside the two's-complement range of a width. -/
def outOfRange (w : Nat) (x : Int) : Bool := decide (x < -(2 ^ (w - 1))) || decide (x > 2 ^ (w - 1) - 1)

/-- AddCC (41_arithmetic.md R170): C the carry out, V the overflow, G and L of the stored result (log 10). -/
def addFlags {w : Nat} (a b : BitVec w) (cin : Bool) : Flagged w :=
  let full : Nat := a.toNat + b.toNat + cin.toNat
  let r : BitVec w := BitVec.ofNat w full
  { value := r
    cc := { c := decide (2 ^ w ≤ full), v := outOfRange w (a.toInt + b.toInt + cin.toNat)
            g := decide (0 < r.toInt), l := decide (r.toInt < 0) } }

/-- SubCC (41_arithmetic.md R171): C the borrow, V the overflow, G and L of the stored result (log 10). -/
def subFlags {w : Nat} (a b : BitVec w) (bin : Bool) : Flagged w :=
  let diff : Int := (a.toNat : Int) - b.toNat - bin.toNat
  let r : BitVec w := BitVec.ofInt w diff
  { value := r
    cc := { c := decide (diff < 0), v := outOfRange w (a.toInt - b.toInt - bin.toNat)
            g := decide (0 < r.toInt), l := decide (r.toInt < 0) } }

/-- ChainGL (41_arithmetic.md R178, log 39): the flags of a halfword of a multiple-precision result. `free` is G when
the halfword is zero and an earlier one was not. -/
def chainCc (free : Bool) (old : Cc) (f : Flagged 16) : Cc :=
  if f.value = 0 then
    if old.g || old.l then { f.cc with g := free, l := false } else { f.cc with g := false, l := false }
  else f.cc

/-- CmpLogCC of the halfword and byte forms (42_logical_compare.md R231, 43_byte.md R246, log 37): C the ordering;
unequal operands set one of G and L, and `free` says which. -/
def compareLogical {w : Nat} (v free : Bool) (a b : BitVec w) : Cc :=
  { c := decide (a.toNat < b.toNat), v := v, g := !(a == b) && free, l := !(a == b) && !free }

/-- CmpLogCC of the fullword forms (42_logical_compare.md R231). -/
def compareLogicalFull (v : Bool) (a b : Full) : Cc :=
  { c := decide (a.toNat < b.toNat), v := v, g := decide (b.toNat < a.toNat), l := decide (a.toNat < b.toNat) }

/-- CmpAlgCC (42_logical_compare.md R232, log 34): C is free when the signed and the unsigned order disagree. -/
def compareSigned {w : Nat} (v free : Bool) (a b : BitVec w) : Cc :=
  let less : Bool := decide (a.toInt < b.toInt)
  { c := if less = decide (a.toNat < b.toNat) then less else free
    v := v, g := decide (b.toInt < a.toInt), l := less }

/-- ShiftCC (44_shift_rotate.md R250): V is 0, C the last bit shifted out. -/
def shiftCc {w : Nat} (r : BitVec w) (c : Bool) : Cc :=
  { c := c, v := false, g := !(r == 0) && !r.msb, l := r.msb }

/-- The four status bits in the Condition Code (48_io.md R361). -/
def statusCc (st : Byte) : Cc := { c := st.getMsbD 4, v := st.getMsbD 5, g := st.getMsbD 6, l := st.getMsbD 7 }

/-- The Condition Code of a four-bit row of a chart. -/
def ccRow (c v g l : Bool) : Cc := { c := c, v := v, g := g, l := l }

/-- LoadComplement's chart (49_list_trig_augment.md R433). -/
def complementCc (op : Word) : Cc :=
  if op = 0x0000 then ccRow false false false false
  else if op = 0x8000 then ccRow true true false true
  else if (-op).msb then ccRow true false false true
  else ccRow true false true false

/-- ChangeBase's chart (49_list_trig_augment.md R435). -/
def changeBaseCc (op : Word) : Cc :=
  if op = 0x0000 then ccRow false false false false
  else if op = 0x8000 then ccRow true false false false
  else if op.msb then ccRow false false false true
  else ccRow false false true false

/-- LoadAbs's chart (49_list_trig_augment.md R437). -/
def absoluteCc (op : Word) : Cc :=
  if op = 0x0000 then ccRow false false false false
  else if op = 0x8000 then ccRow true true false true
  else if op.msb then ccRow true false true false
  else ccRow false false true false

/-- The Condition Code where only V is defined (48_io.md R368, R370, 49_list_trig_augment.md R420): C, G, L are
free. -/
def State.onlyV (s : State) (v : Bool) : Cc := { c := s.freeBit 0, v := v, g := s.freeBit 2, l := s.freeBit 3 }

end Sys2Proof.Machine
end

