-- ==== Sys2Proof/Machine/Arithmetic.lean ====
section
/-! DEFINITION. Fixed-point arithmetic instructions (41_arithmetic.md). Only the divides raise an interrupt. -/

namespace Sys2Proof.Machine

/-- A halfword result and its flags, then the next instruction (41_arithmetic.md R170, R171). -/
def putHalf (len : Word) (r1 : Nibble) (f : Flagged 16) (s : State) : State :=
  ((s.setReg r1 f.value).setCc f.cc).advance len

/-- A fullword result and its flags, then the next instruction (41_arithmetic.md R170, R171). -/
def putFull (len : Word) (r1 : Nibble) (f : Flagged 32) (s : State) : State :=
  ((s.setPair r1 f.value).setCc f.cc).advance len

/-- A halfword of a multiple-precision result: G and L by ChainGL (41_arithmetic.md R178). -/
def putChain (len : Word) (r1 : Nibble) (f : Flagged 16) (s : State) : State :=
  (((s.setReg r1 f.value).setCc (chainCc (s.freeBit 2) s.psw.cc f)).drawn).advance len

/-- AIS (41_arithmetic.md R172). -/
def execAis (r1 n : Nibble) (s : State) : Out := .next (putHalf len2 r1 (addFlags (s.reg r1) (shortValue n) false) s)

/-- AHR (41_arithmetic.md R173). -/
def execAhr (r1 r2 : Nibble) (s : State) : Out := .next (putHalf len2 r1 (addFlags (s.reg r1) (s.reg r2) false) s)

/-- AHI (41_arithmetic.md R174). -/
def execAhi (r1 x2 : Nibble) (i2 : Word) (s : State) : Out :=
  .next (putHalf len4 r1 (addFlags (s.reg r1) (s.ea x2 i2) false) s)

/-- AH (41_arithmetic.md R175). -/
def execAh (r1 x2 : Nibble) (a2 : Word) (s : State) : Out :=
  s.operandHalf x2 a2 fun b => .next (putHalf len4 r1 (addFlags (s.reg r1) b false) s)

/-- AHM (41_arithmetic.md R176): the sum is stored in memory, R1 is not written. -/
def execAhm (r1 x2 : Nibble) (a2 : Word) (s : State) : Out :=
  s.operandHalf x2 a2 fun b =>
    let f := addFlags (s.reg r1) b false
    .next (((s.setHalf s.psw.obank (s.ea x2 a2) f.value).setCc f.cc).advance len4)

/-- ACHR (41_arithmetic.md R177). -/
def execAchr (r1 r2 : Nibble) (s : State) : Out :=
  .next (putChain len2 r1 (addFlags (s.reg r1) (s.reg r2) s.psw.cc.c) s)

/-- ACH (41_arithmetic.md R178). -/
def execAch (r1 x2 : Nibble) (a2 : Word) (s : State) : Out :=
  s.operandHalf x2 a2 fun b => .next (putChain len4 r1 (addFlags (s.reg r1) b s.psw.cc.c) s)

/-- ADPR (41_arithmetic.md R179). -/
def execAdpr (r1 r2 : Nibble) (s : State) : Out :=
  require (evenReg r1 && evenReg r2) .registerField
    (.next (putFull len2 r1 (addFlags (s.pair r1) (s.pair r2) false) s))

/-- ADP (41_arithmetic.md R180). -/
def execAdp (r1 x2 : Nibble) (a2 : Word) (s : State) : Out :=
  require (evenReg r1) .registerField
    (s.operandFull x2 a2 fun b => .next (putFull len4 r1 (addFlags (s.pair r1) b false) s))

/-- SIS (41_arithmetic.md R181). -/
def execSis (r1 n : Nibble) (s : State) : Out := .next (putHalf len2 r1 (subFlags (s.reg r1) (shortValue n) false) s)

/-- SHR (41_arithmetic.md R182). -/
def execShr (r1 r2 : Nibble) (s : State) : Out := .next (putHalf len2 r1 (subFlags (s.reg r1) (s.reg r2) false) s)

/-- SHI (41_arithmetic.md R183). -/
def execShi (r1 x2 : Nibble) (i2 : Word) (s : State) : Out :=
  .next (putHalf len4 r1 (subFlags (s.reg r1) (s.ea x2 i2) false) s)

/-- SH (41_arithmetic.md R184). -/
def execSh (r1 x2 : Nibble) (a2 : Word) (s : State) : Out :=
  s.operandHalf x2 a2 fun b => .next (putHalf len4 r1 (subFlags (s.reg r1) b false) s)

/-- SCHR (41_arithmetic.md R185). -/
def execSchr (r1 r2 : Nibble) (s : State) : Out :=
  .next (putChain len2 r1 (subFlags (s.reg r1) (s.reg r2) s.psw.cc.c) s)

/-- SCH (41_arithmetic.md R186). -/
def execSch (r1 x2 : Nibble) (a2 : Word) (s : State) : Out :=
  s.operandHalf x2 a2 fun b => .next (putChain len4 r1 (subFlags (s.reg r1) b s.psw.cc.c) s)

/-- SDPR (41_arithmetic.md R187). -/
def execSdpr (r1 r2 : Nibble) (s : State) : Out :=
  require (evenReg r1 && evenReg r2) .registerField
    (.next (putFull len2 r1 (subFlags (s.pair r1) (s.pair r2) false) s))

/-- SDP (41_arithmetic.md R188). -/
def execSdp (r1 x2 : Nibble) (a2 : Word) (s : State) : Out :=
  require (evenReg r1) .registerField
    (s.operandFull x2 a2 fun b => .next (putFull len4 r1 (subFlags (s.pair r1) b false) s))

/-- The signed product of two operands of width w, in twice the width (41_arithmetic.md R199). -/
def signedProduct {w : Nat} (a b : BitVec w) : BitVec (2 * w) := BitVec.ofInt (2 * w) (a.toInt * b.toInt)

/-- The product of two magnitudes of width w, in twice the width (41_arithmetic.md R191). -/
def unsignedProduct {w : Nat} (a b : BitVec w) : BitVec (2 * w) := BitVec.ofNat (2 * w) (a.toNat * b.toNat)

/-- A fullword product into R1, R1+1; CC unchanged (41_arithmetic.md R199). -/
def putProduct (len : Word) (r1 : Nibble) (p : Full) (s : State) : State := (s.setPair r1 p).advance len

/-- A doubleword product into R1 to R1+3; CC unchanged (41_arithmetic.md R199). -/
def putProductQuad (len : Word) (r1 : Nibble) (p : Quad) (s : State) : State := (s.setQuad r1 p).advance len

/-- MHR (41_arithmetic.md R189): the multiplicand is in R1+1. -/
def execMhr (r1 r2 : Nibble) (s : State) : Out :=
  require (evenReg r1) .registerField
    (.next (putProduct len2 r1 (signedProduct (s.reg (r1 + 1)) (s.reg r2)) s))

/-- MH (41_arithmetic.md R190). -/
def execMh (r1 x2 : Nibble) (a2 : Word) (s : State) : Out :=
  require (evenReg r1) .registerField
    (s.operandHalf x2 a2 fun b => .next (putProduct len4 r1 (signedProduct (s.reg (r1 + 1)) b) s))

/-- MHUR (41_arithmetic.md R191). -/
def execMhur (r1 r2 : Nibble) (s : State) : Out :=
  require (evenReg r1) .registerField
    (.next (putProduct len2 r1 (unsignedProduct (s.reg (r1 + 1)) (s.reg r2)) s))

/-- MHU (41_arithmetic.md R192). -/
def execMhu (r1 x2 : Nibble) (a2 : Word) (s : State) : Out :=
  require (evenReg r1) .registerField
    (s.operandHalf x2 a2 fun b => .next (putProduct len4 r1 (unsignedProduct (s.reg (r1 + 1)) b) s))

/-- MDPR (41_arithmetic.md R193): the multiplicand is in R1+2, R1+3. -/
def execMdpr (r1 r2 : Nibble) (s : State) : Out :=
  require (quadReg r1 && evenReg r2) .registerField
    (.next (putProductQuad len2 r1 (signedProduct (s.pair (r1 + 2)) (s.pair r2)) s))

/-- MDP (41_arithmetic.md R194). -/
def execMdp (r1 x2 : Nibble) (a2 : Word) (s : State) : Out :=
  require (quadReg r1) .registerField
    (s.operandFull x2 a2 fun b => .next (putProductQuad len4 r1 (signedProduct (s.pair (r1 + 2)) b) s))

/-- The remainder and the quotient, truncated toward zero, none on a divide fault (41_arithmetic.md R200). At the
most negative quotient `free` decides (log 38). -/
def divide (w : Nat) (n d : Int) (free : Bool) : Option (Int × Int) :=
  if d = 0 then none
  else
    let q := n.tdiv d
    if outOfRange w q then none
    else if decide (q = -(2 ^ (w - 1))) && free then none
    else some (n - q * d, q)

/-- A divide that cannot be done (41_arithmetic.md R200): the interrupt if PSW bit 3 is set, with registers and CC
untouched; else only the next instruction (log 11). -/
def divideFault (len : Word) (s : State) : State :=
  if s.psw.fdfEn then s.raiseDivide (s.nextLc len) else s.advance len

/-- A halfword divide of R1, R1+1: the remainder to R1, the quotient to R1+1 (41_arithmetic.md R195). -/
def divideHalf (len : Word) (r1 : Nibble) (d : Word) (s : State) : State :=
  match divide 16 (s.pair r1).toInt d.toInt (s.freeBit 3) with
  | none => divideFault len s.drawn
  | some (rem, q) => ((s.setPair r1 (BitVec.ofInt 16 rem ++ BitVec.ofInt 16 q)).drawn).advance len

/-- A fullword divide of R1 to R1+3: the remainder to R1, R1+1, the quotient to R1+2, R1+3 (41_arithmetic.md R197). -/
def divideFull (len : Word) (r1 : Nibble) (d : Full) (s : State) : State :=
  match divide 32 (s.quad r1).toInt d.toInt (s.freeBit 3) with
  | none => divideFault len s.drawn
  | some (rem, q) => ((s.setQuad r1 (BitVec.ofInt 32 rem ++ BitVec.ofInt 32 q)).drawn).advance len

/-- DHR (41_arithmetic.md R195). -/
def execDhr (r1 r2 : Nibble) (s : State) : Out :=
  require (evenReg r1) .registerField (.next (divideHalf len2 r1 (s.reg r2) s))

/-- DH (41_arithmetic.md R196). -/
def execDh (r1 x2 : Nibble) (a2 : Word) (s : State) : Out :=
  require (evenReg r1) .registerField (s.operandHalf x2 a2 fun d => .next (divideHalf len4 r1 d s))

/-- DDPR (41_arithmetic.md R197). -/
def execDdpr (r1 r2 : Nibble) (s : State) : Out :=
  require (quadReg r1 && evenReg r2) .registerField (.next (divideFull len2 r1 (s.pair r2) s))

/-- DDP (41_arithmetic.md R198). -/
def execDdp (r1 x2 : Nibble) (a2 : Word) (s : State) : Out :=
  require (quadReg r1) .registerField (s.operandFull x2 a2 fun d => .next (divideFull len4 r1 d s))

end Sys2Proof.Machine
end

