-- ==== Sys2Proof/Machine/Augment.lean ====
section
/-! DEFINITION. The instruction augment set (49_list_trig_augment.md R430 to R438). SESB and RESB are privileged. -/

namespace Sys2Proof.Machine

/-- PSW(0:7) <- b (49_list_trig_augment.md R431). -/
def State.setControl (s : State) (b : Byte) : State := { s with psw := s.psw.withControl b }

/-- SESB (49_list_trig_augment.md R431): PSW(0:7) OR I2(0:7). -/
def execSesb (r1 x2 : Nibble) (i2 : Word) (s : State) : Out :=
  s.privileged (require (r1 == 0 && x2 == 0) .mustBeZero
    (.next ((s.setControl (s.psw.control ||| highByte i2)).advance len4)))

/-- RESB (49_list_trig_augment.md R432): PSW(0:7) AND NOT I2(0:7). -/
def execResb (r1 x2 : Nibble) (i2 : Word) (s : State) : Out :=
  s.privileged (require (r1 == 0 && x2 == 0) .mustBeZero
    (.next ((s.setControl (s.psw.control &&& ~~~(highByte i2))).advance len4)))

/-- A halfword into R1 with a whole Condition Code, then the next instruction. -/
def putCoded (len : Word) (r1 : Nibble) (v : Word) (cc : Cc) (s : State) : State :=
  ((s.setReg r1 v).setCc cc).advance len

/-- LoadComplement (49_list_trig_augment.md R433). -/
def loadComplement (len : Word) (r1 : Nibble) (op : Word) (s : State) : State :=
  putCoded len r1 (-op) (complementCc op) s

/-- ChangeBase (49_list_trig_augment.md R435). -/
def changeBase (len : Word) (r1 : Nibble) (op : Word) (s : State) : State :=
  putCoded len r1 (if op.msb then 0x8000 - op else op) (changeBaseCc op) s

/-- LoadAbs (49_list_trig_augment.md R437). -/
def loadAbsolute (len : Word) (r1 : Nibble) (op : Word) (s : State) : State :=
  putCoded len r1 (if op.msb then -op else op) (absoluteCc op) s

/-- LCHR (49_list_trig_augment.md R433). -/
def execLchr (r1 r2 : Nibble) (s : State) : Out := .next (loadComplement len2 r1 (s.reg r2) s)

/-- LCH (49_list_trig_augment.md R434). -/
def execLch (r1 x2 : Nibble) (a2 : Word) (s : State) : Out :=
  s.operandHalf x2 a2 fun op => .next (loadComplement len4 r1 op s)

/-- LCNHR (49_list_trig_augment.md R435). -/
def execLcnhr (r1 r2 : Nibble) (s : State) : Out := .next (changeBase len2 r1 (s.reg r2) s)

/-- LCNH (49_list_trig_augment.md R436). -/
def execLcnh (r1 x2 : Nibble) (a2 : Word) (s : State) : Out :=
  s.operandHalf x2 a2 fun op => .next (changeBase len4 r1 op s)

/-- LAVR (49_list_trig_augment.md R437). -/
def execLavr (r1 r2 : Nibble) (s : State) : Out := .next (loadAbsolute len2 r1 (s.reg r2) s)

/-- LAV (49_list_trig_augment.md R438). -/
def execLav (r1 x2 : Nibble) (a2 : Word) (s : State) : Out :=
  s.operandHalf x2 a2 fun op => .next (loadAbsolute len4 r1 op s)

end Sys2Proof.Machine
end

