-- ==== Sys2Proof/Machine/Branch.lean ====
section
/-! DEFINITION. Branch instructions (45_branch.md). A branch writes only the Location Counter, and the link or index
register; the bank does not change (R65, R296). An odd target is refused at the next fetch (R294). -/

namespace Sys2Proof.Machine

/-- Branch to `target` when `taken`, else the next instruction (45_branch.md R280). -/
def branchIf (taken : Bool) (target len : Word) (s : State) : State :=
  if taken then s.setLc target else s.advance len

/-- BTBS (45_branch.md R282). -/
def execBtbs (m1 n : Nibble) (s : State) : Out := .next (branchIf (s.psw.cc.meets m1) (s.backward n) len2 s)

/-- BTFS (45_branch.md R283). -/
def execBtfs (m1 n : Nibble) (s : State) : Out := .next (branchIf (s.psw.cc.meets m1) (s.forward n) len2 s)

/-- BTCR (45_branch.md R284). -/
def execBtcr (m1 r2 : Nibble) (s : State) : Out := .next (branchIf (s.psw.cc.meets m1) (s.reg r2) len2 s)

/-- BTC (45_branch.md R285): the address itself is the target, memory is not read. -/
def execBtc (m1 x2 : Nibble) (a2 : Word) (s : State) : Out :=
  .next (branchIf (s.psw.cc.meets m1) (s.ea x2 a2) len4 s)

/-- BFBS (45_branch.md R286). -/
def execBfbs (m1 n : Nibble) (s : State) : Out := .next (branchIf (!s.psw.cc.meets m1) (s.backward n) len2 s)

/-- BFFS (45_branch.md R287). -/
def execBffs (m1 n : Nibble) (s : State) : Out := .next (branchIf (!s.psw.cc.meets m1) (s.forward n) len2 s)

/-- BFCR (45_branch.md R288). -/
def execBfcr (m1 r2 : Nibble) (s : State) : Out := .next (branchIf (!s.psw.cc.meets m1) (s.reg r2) len2 s)

/-- BFC (45_branch.md R289). -/
def execBfc (m1 x2 : Nibble) (a2 : Word) (s : State) : Out :=
  .next (branchIf (!s.psw.cc.meets m1) (s.ea x2 a2) len4 s)

/-- Greater (45_branch.md R295): the comparison that BX_COMPARE selects (log 32). Where the bits 0 of the operands
are equal the two comparisons agree and the parameter is not consulted. -/
def indexGreater (v lim : Word) : Bool :=
  if v.msb = lim.msb then decide (lim.toNat < v.toNat)
  else if Config.bxSigned then decide (lim.toInt < v.toInt) else decide (lim.toNat < v.toNat)

/-- The incremented index of BXH and BXLE (45_branch.md R290). -/
def State.steppedIndex (s : State) (r1 : Nibble) : Word := s.reg r1 + s.reg (r1 + 1)

/-- BXH (45_branch.md R290). -/
def execBxh (r1 x2 : Nibble) (i2 : Word) (s : State) : Out :=
  require (tripleReg r1) .registerField
    (.next (branchIf (indexGreater (s.steppedIndex r1) (s.reg (r1 + 2))) (s.ea x2 i2) len4
      (s.setReg r1 (s.steppedIndex r1))))

/-- BXLE (45_branch.md R291). -/
def execBxle (r1 x2 : Nibble) (i2 : Word) (s : State) : Out :=
  require (tripleReg r1) .registerField
    (.next (branchIf (!indexGreater (s.steppedIndex r1) (s.reg (r1 + 2))) (s.ea x2 i2) len4
      (s.setReg r1 (s.steppedIndex r1))))

/-- BALR (45_branch.md R292): the target is read before R1 is written. -/
def execBalr (r1 r2 : Nibble) (s : State) : Out := .next ((s.setReg r1 (s.nextLc len2)).setLc (s.reg r2))

/-- BAL (45_branch.md R293). -/
def execBal (r1 x2 : Nibble) (a2 : Word) (s : State) : Out :=
  .next ((s.setReg r1 (s.nextLc len4)).setLc (s.ea x2 a2))

end Sys2Proof.Machine
end

