-- ==== Sys2Proof/Machine/Logical.lean ====
section
/-! DEFINITION. Logical and compare instructions (42_logical_compare.md). None is privileged, none raises an
interrupt. -/

namespace Sys2Proof.Machine

/-- A logical result into R1 with CC <- LogicCC, then the next instruction (42_logical_compare.md R210). -/
def putLogic (len : Word) (r1 : Nibble) (r : Word) (s : State) : State :=
  (((s.setReg r1 r).setCc (s.loadCc r)).drawn).advance len

/-- The Condition Code of a test or compare, which draws free bits, then the next instruction. -/
def putCc (len : Word) (cc : Cc) (s : State) : State := ((s.setCc cc).drawn).advance len

/-- NHR (42_logical_compare.md R211). -/
def execNhr (r1 r2 : Nibble) (s : State) : Out := .next (putLogic len2 r1 (s.reg r1 &&& s.reg r2) s)

/-- NHI (42_logical_compare.md R212). -/
def execNhi (r1 x2 : Nibble) (i2 : Word) (s : State) : Out := .next (putLogic len4 r1 (s.reg r1 &&& s.ea x2 i2) s)

/-- NH (42_logical_compare.md R213). -/
def execNh (r1 x2 : Nibble) (a2 : Word) (s : State) : Out :=
  s.operandHalf x2 a2 fun b => .next (putLogic len4 r1 (s.reg r1 &&& b) s)

/-- OHR (42_logical_compare.md R214). -/
def execOhr (r1 r2 : Nibble) (s : State) : Out := .next (putLogic len2 r1 (s.reg r1 ||| s.reg r2) s)

/-- OHI (42_logical_compare.md R215). -/
def execOhi (r1 x2 : Nibble) (i2 : Word) (s : State) : Out := .next (putLogic len4 r1 (s.reg r1 ||| s.ea x2 i2) s)

/-- OH (42_logical_compare.md R216). -/
def execOh (r1 x2 : Nibble) (a2 : Word) (s : State) : Out :=
  s.operandHalf x2 a2 fun b => .next (putLogic len4 r1 (s.reg r1 ||| b) s)

/-- XHR (42_logical_compare.md R217). -/
def execXhr (r1 r2 : Nibble) (s : State) : Out := .next (putLogic len2 r1 (s.reg r1 ^^^ s.reg r2) s)

/-- XHI (42_logical_compare.md R218). -/
def execXhi (r1 x2 : Nibble) (i2 : Word) (s : State) : Out := .next (putLogic len4 r1 (s.reg r1 ^^^ s.ea x2 i2) s)

/-- XH (42_logical_compare.md R219). -/
def execXh (r1 x2 : Nibble) (a2 : Word) (s : State) : Out :=
  s.operandHalf x2 a2 fun b => .next (putLogic len4 r1 (s.reg r1 ^^^ b) s)

/-- THI (42_logical_compare.md R220): nothing is stored. -/
def execThi (r1 x2 : Nibble) (i2 : Word) (s : State) : Out :=
  .next (putCc len4 (s.loadCc (s.reg r1 &&& s.ea x2 i2)) s)

/-- CmpLogCC_16 with the free bits of this draw (42_logical_compare.md R231). -/
def State.logicalOrder (s : State) (a b : Word) : Cc := compareLogical (s.freeBit 1) (s.freeBit 2) a b

/-- CLHR (42_logical_compare.md R221). -/
def execClhr (r1 r2 : Nibble) (s : State) : Out := .next (putCc len2 (s.logicalOrder (s.reg r1) (s.reg r2)) s)

/-- CLHI (42_logical_compare.md R222). -/
def execClhi (r1 x2 : Nibble) (i2 : Word) (s : State) : Out :=
  .next (putCc len4 (s.logicalOrder (s.reg r1) (s.ea x2 i2)) s)

/-- CLH (42_logical_compare.md R223). -/
def execClh (r1 x2 : Nibble) (a2 : Word) (s : State) : Out :=
  s.operandHalf x2 a2 fun b => .next (putCc len4 (s.logicalOrder (s.reg r1) b) s)

/-- CLDPR (42_logical_compare.md R224). -/
def execCldpr (r1 r2 : Nibble) (s : State) : Out :=
  require (evenReg r1 && evenReg r2) .registerField
    (.next (putCc len2 (compareLogicalFull (s.freeBit 1) (s.pair r1) (s.pair r2)) s))

/-- CLDP (42_logical_compare.md R225). -/
def execCldp (r1 x2 : Nibble) (a2 : Word) (s : State) : Out :=
  require (evenReg r1) .registerField
    (s.operandFull x2 a2 fun b => .next (putCc len4 (compareLogicalFull (s.freeBit 1) (s.pair r1) b) s))

/-- CmpAlgCC with the free bits of this draw (42_logical_compare.md R232). -/
def State.signedOrder {w : Nat} (s : State) (a b : BitVec w) : Cc := compareSigned (s.freeBit 1) (s.freeBit 0) a b

/-- CHR (42_logical_compare.md R226). -/
def execChr (r1 r2 : Nibble) (s : State) : Out := .next (putCc len2 (s.signedOrder (s.reg r1) (s.reg r2)) s)

/-- CHI (42_logical_compare.md R227). -/
def execChi (r1 x2 : Nibble) (i2 : Word) (s : State) : Out :=
  .next (putCc len4 (s.signedOrder (s.reg r1) (s.ea x2 i2)) s)

/-- CH (42_logical_compare.md R228). -/
def execCh (r1 x2 : Nibble) (a2 : Word) (s : State) : Out :=
  s.operandHalf x2 a2 fun b => .next (putCc len4 (s.signedOrder (s.reg r1) b) s)

/-- CDPR (42_logical_compare.md R229). -/
def execCdpr (r1 r2 : Nibble) (s : State) : Out :=
  require (evenReg r1 && evenReg r2) .registerField
    (.next (putCc len2 (s.signedOrder (s.pair r1) (s.pair r2)) s))

/-- CDP (42_logical_compare.md R230). -/
def execCdp (r1 x2 : Nibble) (a2 : Word) (s : State) : Out :=
  require (evenReg r1) .registerField
    (s.operandFull x2 a2 fun b => .next (putCc len4 (s.signedOrder (s.pair r1) b) s))

end Sys2Proof.Machine
end

