-- ==== Sys2Proof/Machine/Bytes.lean ====
section
/-! DEFINITION. Byte handling instructions (43_byte.md). Byte addresses may be odd (R240). -/

namespace Sys2Proof.Machine

/-- A halfword into a register, CC unchanged, then the next instruction (43_byte.md R240). -/
def putByte (len : Word) (r : Nibble) (v : Word) (s : State) : State := (s.setReg r v).advance len

/-- LBR (43_byte.md R241). -/
def execLbr (r1 r2 : Nibble) (s : State) : Out := .next (putByte len2 r1 (byteWord (lowByte (s.reg r2))) s)

/-- LB (43_byte.md R242). -/
def execLb (r1 x2 : Nibble) (a2 : Word) (s : State) : Out :=
  s.operandByte x2 a2 fun b => .next (putByte len4 r1 (byteWord b) s)

/-- STBR (43_byte.md R243): the destination is R2, whose left byte is kept. -/
def execStbr (r1 r2 : Nibble) (s : State) : Out :=
  .next (putByte len2 r2 (highByte (s.reg r2) ++ lowByte (s.reg r1)) s)

/-- STB (43_byte.md R244). -/
def execStb (r1 x2 : Nibble) (a2 : Word) (s : State) : Out :=
  andThen (s.writeByte s.psw.obank (s.ea x2 a2) (lowByte (s.reg r1))) fun t => .next (t.advance len4)

/-- EXBR (43_byte.md R245). -/
def execExbr (r1 r2 : Nibble) (s : State) : Out :=
  .next (putByte len2 r1 (lowByte (s.reg r2) ++ highByte (s.reg r2)) s)

/-- CLB (43_byte.md R246). -/
def execClb (r1 x2 : Nibble) (a2 : Word) (s : State) : Out :=
  s.operandByte x2 a2 fun b =>
    .next (putCc len4 (compareLogical (s.freeBit 1) (s.freeBit 2) (lowByte (s.reg r1)) b) s)

end Sys2Proof.Machine
end

