-- ==== Sys2Proof/Machine/FloatMath.lean ====
section
/-! DEFINITION. Floating-point arithmetic on 32-bit words (46_floating_point.md R300 to R319): sign, excess-64
exponent and six hexadecimal digits. Values are exact integers scaled by 16^70, so that the word with exponent field e
and fraction m is m * 16^e. -/

namespace Sys2Proof.Machine

/-- The sign bit (46_floating_point.md R300). -/
def fpSign (w : Full) : Bool := w.msb

/-- The exponent field, 0 to 127 (46_floating_point.md R300, log 15). -/
def fpExp (w : Full) : Nat := (w.extractLsb' 24 7).toNat

/-- The fraction, below 2^24 (46_floating_point.md R300, log 15). -/
def fpFrac (w : Full) : Nat := (w.extractLsb' 0 24).toNat

/-- A word from sign, exponent field and fraction (46_floating_point.md R300). -/
def fpWord (s : Bool) (e m : Nat) : Full := BitVec.ofBool s ++ BitVec.ofNat 7 e ++ BitVec.ofNat 24 m

/-- X'0000 0000' (46_floating_point.md R300). -/
def trueZero : Full := 0

/-- The greatest magnitude of a sign (46_floating_point.md R300). -/
def maxMag (s : Bool) : Full := fpWord s 127 0xFFFFFF

/-- Whether a word is normalised or the true zero (46_floating_point.md R300). -/
def normalised (w : Full) : Bool := w == trueZero || decide (2 ^ 20 ≤ fpFrac w)

/-- A magnitude with a sign. -/
def signed (s : Bool) (m : Nat) : Int := if s then -(m : Int) else m

/-- The value of a word, times 16^70 (46_floating_point.md R300). -/
def fpScaled (w : Full) : Int := signed (fpSign w) (fpFrac w * 16 ^ fpExp w)

/-- What a floating-point instruction does to its register, the Condition Code, and whether a fault arises. -/
structure FpOutcome where
  /-- The word for f[R1], none to leave it. -/
  store : Option Full
  /-- The Condition Code. -/
  cc : Cc
  /-- Overflow, underflow or division by zero: FpFault (46_floating_point.md R303). -/
  fault : Bool

/-- The free values of one floating-point instruction (log 26): bits and a word of the current draw. -/
structure FpDraw where
  /-- Free bits. -/
  bit : Nat → Bool
  /-- A free word. -/
  word : Full

/-- The free values of the current draw. -/
def State.fpDraw (s : State) : FpDraw := { bit := s.freeBit, word := s.freeFull 1 }

/-- An ordinary result: V is 0, G and L by SignCC, C as given (46_floating_point.md R318). -/
def fpOrdinary (c : Bool) (w : Full) : FpOutcome :=
  { store := some w
    cc := { c := c, v := false, g := !(w == trueZero) && !fpSign w, l := !(w == trueZero) && fpSign w }
    fault := false }

/-- Exponent underflow: the true zero, V set, G and L reset (46_floating_point.md R303). -/
def fpUnderflow (c : Bool) : FpOutcome :=
  { store := some trueZero, cc := { c := c, v := true, g := false, l := false }, fault := true }

/-- Exponent overflow: the greatest magnitude of the sign, V set, G and L as given (46_floating_point.md R303). -/
def fpOverflow (c g l : Bool) (s : Bool) : FpOutcome :=
  { store := some (maxMag s), cc := { c := c, v := true, g := g, l := l }, fault := true }

/-- RequireNorm of both operands of an arithmetic instruction or a compare (46_floating_point.md R304, log 28): with one
that is not normalised the result, the Condition Code and whether a fault arises are all undefined, and the model
refuses. -/
def requireNorm (a b : Full) (out : Out) : Out := require (normalised a && normalised b) .notNormalised out

/-! ### Normalisation -/

/-- Shift left by hexadecimal digits until the leading digit is not zero, at most `k` times (46_floating_point.md
R302). -/
def fpShift : Nat → Int → Nat → Int × Nat
  | 0, e, m => (e, m)
  | k + 1, e, m => if m < 2 ^ 20 then fpShift k (e - 1) (m * 16) else (e, m)

/-- Norm (46_floating_point.md R302) as an outcome: a zero fraction gives the true zero, an exponent below zero the
underflow. -/
def fpNorm (c : Bool) (s : Bool) (e : Int) (m : Nat) : FpOutcome :=
  if m = 0 then fpOrdinary c trueZero
  else
    let p := fpShift 5 e m
    if p.1 < 0 then fpUnderflow c else fpOrdinary c (fpWord s p.1.toNat p.2)

/-- LER and LE (46_floating_point.md R305). -/
def fpLoad (d : FpDraw) (w : Full) : FpOutcome := fpNorm (d.bit 0) (fpSign w) (fpExp w) (fpFrac w)

/-! ### Add and subtract -/

/-- Steps 1 to 4 of the addition as written: alignment and carry drop the digits shifted out (46_floating_point.md
R308). The default outcome. -/
def fpAddPlain (c : Bool) (a b : Full) : FpOutcome :=
  let e := max (fpExp a) (fpExp b)
  let ma := fpFrac a / 16 ^ (e - fpExp a)
  let mb := fpFrac b / 16 ^ (e - fpExp b)
  let t := signed (fpSign a) ma + signed (fpSign b) mb
  let s := decide (t < 0)
  let m := t.natAbs
  if 2 ^ 24 ≤ m then
    if 127 < e + 1 then fpOverflow c (!s) s s else fpOrdinary c (fpWord s (e + 1) (m / 16))
  else fpNorm c s e m

/-- Whether a digit that is not zero is shifted out in step 1 or step 3 of the addition (46_floating_point.md R308). -/
def fpAddLoses (a b : Full) : Bool :=
  let e := max (fpExp a) (fpExp b)
  let ma := fpFrac a / 16 ^ (e - fpExp a)
  let mb := fpFrac b / 16 ^ (e - fpExp b)
  let m := (signed (fpSign a) ma + signed (fpSign b) mb).natAbs
  !(fpFrac a % 16 ^ (e - fpExp a) == 0) || !(fpFrac b % 16 ^ (e - fpExp b) == 0) ||
    (decide (2 ^ 24 ≤ m) && !(m % 16 == 0))

/-- The unit in the last place of the larger operand, times 16^70 (46_floating_point.md R308). -/
def fpUnit (a b : Full) : Int := (16 : Int) ^ max (fpExp a) (fpExp b)

/-- Whether the sign of a result is not opposite to the sign of the exact sum (46_floating_point.md R308). -/
def sameSide (r x : Int) : Bool := !(decide (r < 0) && decide (0 < x)) && !(decide (0 < r) && decide (x < 0))

/-- The relation of 46_floating_point.md R308 (ii) for an ordinary result: the true zero or a normalised word, within
17 units of the exact sum and not of the opposite sign. -/
def fpAddAdmits (a b r : Full) : Bool :=
  let x := fpScaled a + fpScaled b
  normalised r && decide ((fpScaled r - x).natAbs < 17 * (fpUnit a b).natAbs) && sameSide (fpScaled r) x

/-- The overflow outcome is that of some admitted result: the exact sum is within 17 units of a magnitude above the
greatest (46_floating_point.md R308 (ii), log 26). -/
def fpAddMayOverflow (a b : Full) : Bool :=
  let x := fpScaled a + fpScaled b
  decide ((2 ^ 24 * 16 ^ 127 : Nat) < x.natAbs + 17 * (fpUnit a b).natAbs)

/-- The underflow outcome is that of some admitted result: the exact sum is not zero and within 17 units of a
magnitude below the least normalised (46_floating_point.md R308 (ii), log 26). -/
def fpAddMayUnderflow (a b : Full) : Bool :=
  let x := fpScaled a + fpScaled b
  !(x == 0) && decide (x.natAbs < 2 ^ 20 + 17 * (fpUnit a b).natAbs)

/-- FpAdd (46_floating_point.md R308): exact where no digit is lost, else any outcome of the relation, chosen by the
free values, and the default where they choose none (log 26). -/
def fpAdd (d : FpDraw) (a b : Full) : FpOutcome :=
  let c := d.bit 0
  let negative := decide (fpScaled a + fpScaled b < 0)
  if !fpAddLoses a b then fpAddPlain c a b
  else if d.bit 4 && fpAddMayOverflow a b then fpOverflow c (!negative) negative negative
  else if d.bit 5 && fpAddMayUnderflow a b then fpUnderflow c
  else if fpAddAdmits a b d.word then fpOrdinary c d.word
  else fpAddPlain c a b

/-- Neg (46_floating_point.md R310): bit 0 inverted. -/
def fpNeg (w : Full) : Full := w ^^^ BitVec.intMin 32

/-- FpAdd with the second operand's sign bit inverted (46_floating_point.md R310). -/
def fpSub (d : FpDraw) (a b : Full) : FpOutcome := fpAdd d a (fpNeg b)

/-! ### Compare -/

/-- FpCmp (46_floating_point.md R312): the order of the values, V free. -/
def fpCompare (d : FpDraw) (a b : Full) : Cc :=
  { c := decide (fpScaled a < fpScaled b), v := d.bit 1
    g := decide (fpScaled b < fpScaled a), l := decide (fpScaled a < fpScaled b) }

/-! ### Multiply -/

/-- A rounded fraction with its exponent field: a carry out of the fraction adds one to the exponent, and an exponent
above 127 is the overflow (46_floating_point.md R314, R316). -/
def fpPack (overflow : FpOutcome) (c : Bool) (s : Bool) (e m : Nat) : FpOutcome :=
  let e' := if m = 2 ^ 24 then e + 1 else e
  let m' := if m = 2 ^ 24 then 2 ^ 20 else m
  if 127 < e' then overflow else fpOrdinary c (fpWord s e' m')

/-- Either neighbour of an inexact quotient of integers, as `free` says; the exact value when there is one
(46_floating_point.md R314 Round24, R316 RoundQ, log 26). -/
def roundedDiv (free : Bool) (n q : Nat) : Nat :=
  if n % q = 0 then n / q else if free then n / q + 1 else n / q

/-- FpMul (46_floating_point.md R314). G and L are free on overflow; a zero operand
whose exponent sum underflows is the underflow or the zero product, as a free bit says (log 27). -/
def fpMul (d : FpDraw) (a b : Full) : FpOutcome :=
  let c := d.bit 0
  let s := fpSign a ^^ fpSign b
  let sum : Int := (fpExp a - 64) + (fpExp b - 64)
  let p := fpFrac a * fpFrac b
  if 63 < sum then fpOverflow c (d.bit 2) (d.bit 3) s
  else if p = 0 then if decide (sum < -64) && d.bit 4 then fpUnderflow c else fpOrdinary c trueZero
  else if sum < -64 then fpUnderflow c
  else
    let e : Int := if p < 2 ^ 44 then sum + 63 else sum + 64
    let p' := if p < 2 ^ 44 then p * 16 else p
    if e < 0 then fpUnderflow c
    else fpPack (fpOverflow c (d.bit 2) (d.bit 3) s) c s e.toNat (roundedDiv (d.bit 5) p' (2 ^ 24))

/-! ### Divide -/

/-- The overflow of a division: C is 0, and (G, L) one of 10, 01, 11, as free bits say (46_floating_point.md R316). -/
def fpDivOverflow (d : FpDraw) (s : Bool) : FpOutcome := fpOverflow false (d.bit 2 || !d.bit 3) (d.bit 3) s

/-- A zero divisor: the register is unchanged, the Condition Code is 1100 (46_floating_point.md R316). -/
def fpZeroDivisor : FpOutcome :=
  { store := none, cc := { c := true, v := true, g := false, l := false }, fault := true }

/-- FpDiv (46_floating_point.md R316). A zero dividend whose exponent difference
underflows is the underflow or the zero quotient, as a free bit says (log 27). -/
def fpDiv (d : FpDraw) (a b : Full) : FpOutcome :=
  let s := fpSign a ^^ fpSign b
  let diff : Int := (fpExp a - 64) - (fpExp b - 64)
  if b = trueZero then fpZeroDivisor
  else if 63 < diff then fpDivOverflow d s
  else if a = trueZero then
    if decide (diff < -64) && d.bit 4 then fpUnderflow false else fpOrdinary (d.bit 0) trueZero
  else if diff < -64 then fpUnderflow false
  else
    let big := decide (fpFrac b ≤ fpFrac a)
    let e : Int := if big then diff + 65 else diff + 64
    let scale := if big then 2 ^ 20 else 2 ^ 24
    if 127 < e then fpDivOverflow d s
    else if e < 0 then fpUnderflow false
    else fpPack (fpDivOverflow d s) (d.bit 0) s e.toNat (roundedDiv (d.bit 5) (fpFrac a * scale) (fpFrac b))

/-! ### The end of a floating-point instruction -/

/-- The result, then the Condition Code, then the fault if PSW bit 5 is set (46_floating_point.md R303, log 33). -/
def finishFloat (len : Word) (r1 : Nibble) (o : FpOutcome) (s : State) : State :=
  let t := match o.store with
    | some w => s.setFpReg r1 w
    | none => s
  let u := t.setCc o.cc
  if o.fault && s.psw.fpfEn then u.drawn.raiseFloat (s.nextLc len) else u.drawn.advance len

end Sys2Proof.Machine
end

