-- ==== Sys2Proof/Machine/FloatingPoint.lean ====
section
/-! DEFINITION. Floating-point instructions (46_floating_point.md). R1, and R2 in the register forms, name
floating-point registers and must be even (R301). -/

namespace Sys2Proof.Machine

/-- LER (46_floating_point.md R305). -/
def execLer (r1 r2 : Nibble) (s : State) : Out :=
  require (evenReg r1 && evenReg r2) .registerField (.next (finishFloat len2 r1 (fpLoad s.fpDraw (s.fpReg r2)) s))

/-- LE (46_floating_point.md R306). -/
def execLe (r1 x2 : Nibble) (a2 : Word) (s : State) : Out :=
  require (evenReg r1) .registerField
    (s.operandFull x2 a2 fun w => .next (finishFloat len4 r1 (fpLoad s.fpDraw w) s))

/-- STE (46_floating_point.md R307): the bits are copied, CC unchanged. -/
def execSte (r1 x2 : Nibble) (a2 : Word) (s : State) : Out :=
  require (evenReg r1) .registerField
    (andThen (s.writeFull s.psw.obank (s.ea x2 a2) (s.fpReg r1)) fun t => .next (t.advance len4))

/-- FpAdd, FpSub, FpMul or FpDiv on the register and a second operand, both normalised, into the register
(46_floating_point.md R308, R310, R314, R316). -/
def floatArith (f : FpDraw → Full → Full → FpOutcome) (len : Word) (r1 : Nibble) (b : Full) (s : State) : Out :=
  requireNorm (s.fpReg r1) b (.next (finishFloat len r1 (f s.fpDraw (s.fpReg r1) b) s))

/-- AER (46_floating_point.md R308). -/
def execAer (r1 r2 : Nibble) (s : State) : Out :=
  require (evenReg r1 && evenReg r2) .registerField
    (floatArith fpAdd len2 r1 (s.fpReg r2) s)

/-- AE (46_floating_point.md R309). -/
def execAe (r1 x2 : Nibble) (a2 : Word) (s : State) : Out :=
  require (evenReg r1) .registerField
    (s.operandFull x2 a2 fun b => floatArith fpAdd len4 r1 b s)

/-- SER (46_floating_point.md R310). -/
def execSer (r1 r2 : Nibble) (s : State) : Out :=
  require (evenReg r1 && evenReg r2) .registerField
    (floatArith fpSub len2 r1 (s.fpReg r2) s)

/-- SE (46_floating_point.md R311). -/
def execSe (r1 x2 : Nibble) (a2 : Word) (s : State) : Out :=
  require (evenReg r1) .registerField
    (s.operandFull x2 a2 fun b => floatArith fpSub len4 r1 b s)

/-- The comparison of the register with a second operand, both normalised (46_floating_point.md R312). -/
def floatCompare (len : Word) (r1 : Nibble) (b : Full) (s : State) : Out :=
  requireNorm (s.fpReg r1) b (.next ((s.setCc (fpCompare s.fpDraw (s.fpReg r1) b)).drawn.advance len))

/-- CER (46_floating_point.md R312). -/
def execCer (r1 r2 : Nibble) (s : State) : Out :=
  require (evenReg r1 && evenReg r2) .registerField
    (floatCompare len2 r1 (s.fpReg r2) s)

/-- CE (46_floating_point.md R313). -/
def execCe (r1 x2 : Nibble) (a2 : Word) (s : State) : Out :=
  require (evenReg r1) .registerField
    (s.operandFull x2 a2 fun b => floatCompare len4 r1 b s)

/-- MER (46_floating_point.md R314). -/
def execMer (r1 r2 : Nibble) (s : State) : Out :=
  require (evenReg r1 && evenReg r2) .registerField
    (floatArith fpMul len2 r1 (s.fpReg r2) s)

/-- ME (46_floating_point.md R315). -/
def execMe (r1 x2 : Nibble) (a2 : Word) (s : State) : Out :=
  require (evenReg r1) .registerField
    (s.operandFull x2 a2 fun b => floatArith fpMul len4 r1 b s)

/-- DER (46_floating_point.md R316). -/
def execDer (r1 r2 : Nibble) (s : State) : Out :=
  require (evenReg r1 && evenReg r2) .registerField
    (floatArith fpDiv len2 r1 (s.fpReg r2) s)

/-- DE (46_floating_point.md R317). -/
def execDe (r1 x2 : Nibble) (a2 : Word) (s : State) : Out :=
  require (evenReg r1) .registerField
    (s.operandFull x2 a2 fun b => floatArith fpDiv len4 r1 b s)

end Sys2Proof.Machine
end

