-- ==== Sys2Proof/Machine/Devices.lean ====
section
/-! DEFINITION. The device oracle (48_io.md R363): answers come from the environment's script, and are free values
when it is empty (log 18). -/

namespace Sys2Proof.Machine

/-- A free answer of a device: lanes 8 to 10 of the current draw (48_io.md R363). -/
def State.freeReply (s : State) (device : Byte) : Reply :=
  { device := device, timeout := (s.freeFull 8).getLsbD 0, cannot := (s.freeFull 8).getLsbD 1
    data := (s.freeFull 9).setWidth 16, status := (s.freeFull 10).setWidth 8 }

/-- The next answer of a device (48_io.md R363). -/
def State.reply (s : State) (device : Byte) : Reply :=
  match s.replies.find? fun r => r.device == device with
  | some r => r
  | none => s.freeReply device

/-- A device's answer is spent, and a draw with it; the operation is performed unless it timed out (48_io.md R362). -/
def State.operate (s : State) (device : Byte) (op : BusOp) : State :=
  { s.drawn with
    replies := s.replies.eraseP fun r => r.device == device
    bus := if (s.reply device).timeout then s.bus else op :: s.bus }

/-- The status byte delivered on a time-out of Sense Status or Acknowledge Interrupt (48_io.md R362 (c)): bits 0:3
are 0, bit 5 is 1, the others are free. -/
def State.timeoutStatus (s : State) : Byte := 0x04 ||| (0x0B &&& (s.freeFull 11).setWidth 8)

/-- A free halfword: the device number of an acknowledge that timed out (48_io.md R364), and what a read that timed out
leaves where it leaves a draw (R362 (d), log 49). -/
def State.timeoutData (s : State) : Word := (s.freeFull 12).setWidth 16

/-- Whether any controller requests (48_io.md R363 Attention). -/
def State.attention (s : State) : Bool := !s.requests.isEmpty

/-- The acknowledged controller's request is cleared (48_io.md R363 Ack): the first on the chain. -/
def State.acknowledged (s : State) : State := { s with requests := s.requests.tail }

/-- Device number and status of an acknowledge; the processor's time-out values when no controller requests
(48_io.md R364, log 19). -/
structure Acknowledge where
  /-- The halfword for R1. -/
  device : Word
  /-- The status byte. -/
  status : Byte

/-- The acknowledge of the first requesting controller (48_io.md R364). -/
def State.acknowledge (s : State) : Acknowledge :=
  match s.requests with
  | r :: _ => { device := byteWord r.device, status := r.status }
  | [] => { device := s.timeoutData, status := s.timeoutStatus }

/-- The status byte of a Sense (48_io.md R366). -/
def State.sensed (s : State) (device : Byte) : Byte :=
  if (s.reply device).timeout then s.timeoutStatus else (s.reply device).status

/-- A read of one byte or halfword: on an answer `put` stores the data; on a time-out it stores a draw or nothing, as
the parameter says (48_io.md R362 (d), 93_implementation_defined.md U15, log 49). V tells the time-out (R362). Where
nothing is stored no memory is accessed, so that absent memory is no ground for a refusal (log 49). -/
def inputData (len : Word) (d : Byte) (op : BusOp) (data : Word) (put : Word → State → Out) (s : State) : Out :=
  let t := s.operate d op
  andThen (if (s.reply d).timeout then if s.params.timeoutDraws then put s.timeoutData t else .next t else put data t)
    fun u => .next ((u.setCc (s.onlyV (s.reply d).timeout)).advance len)

/-! ### Block transfers and Autoload -/

/-- The Condition Code of a transfer that timed out: V set, the others free (48_io.md R374, R380). -/
def State.timeoutCc (s : State) : Cc := s.onlyV true

/-- Whether a status byte has any of bits 4:7 set, which ends a block abnormally (48_io.md R374, R380). -/
def badStatus (st : Byte) : Bool := !(st &&& 0x0F == 0)

/-- The rest of a Read Block: `k` bytes from address `n` on (48_io.md R380). -/
def readBlock (device : Byte) : Nat → Word → State → Out
  | 0, _, s => .next (s.setCc (ccRow false false false false))
  | k + 1, n, s =>
    let r := s.reply device
    let t := s.operate device (.readByte device)
    if r.timeout then .next (t.setCc s.timeoutCc)
    else if badStatus r.status then .next (t.setCc (statusCc r.status))
    else s.guardByte s.psw.obank n (readBlock device k (n + 1) (t.setByte s.psw.obank n (lowByte r.data)))

/-- The rest of a Write Block: `k` bytes from address `n` on (48_io.md R380). -/
def writeBlock (device : Byte) : Nat → Word → State → Out
  | 0, _, s => .next (s.setCc (ccRow false false false false))
  | k + 1, n, s =>
    let r := s.reply device
    let t := s.operate device (.writeByte device (s.byteAt s.psw.obank n))
    s.guardByte s.psw.obank n
      (if r.timeout then .next (t.setCc s.timeoutCc)
       else if badStatus r.status then .next (t.setCc (statusCc r.status))
       else writeBlock device k (n + 1) t)

/-- How many bytes lie between two limits, inclusive, 0 when the start is greater (48_io.md R380). -/
def blockLength (start stop : Word) : Nat := if stop.toNat < start.toNat then 0 else stop.toNat - start.toNat + 1

/-- Whether an answer is leader: a good transfer of a zero byte (48_io.md R374). -/
def isLeader (r : Reply) : Bool := !r.timeout && !badStatus r.status && lowByte r.data == 0

/-- The leader of a device: its answers up to the first that is not leader (48_io.md R374). -/
def leader (device : Byte) (replies : List Reply) : List Reply :=
  (replies.filter fun r => r.device == device).takeWhile isLeader

/-- The script without the leader of a device (48_io.md R374). -/
def dropLeader (device : Byte) : List Reply → List Reply
  | [] => []
  | r :: rest =>
    if r.device == device then if isLeader r then dropLeader device rest else r :: rest
    else r :: dropLeader device rest

/-- An answer that is not leader: the leader byte becomes 1 (log 22). -/
def notLeader (r : Reply) : Reply := if isLeader r then { r with data := 1 } else r

/-- The state in which a device's leader has been read, one byte after another, and skipped; where its script ends
within the leader, a free answer that ends the leader follows (48_io.md R374, log 22). -/
def State.afterLeader (s : State) (device : Byte) : State :=
  let rest := dropLeader device s.replies
  let t := { s with bus := List.replicate (leader device s.replies).length (BusOp.readByte device) ++ s.bus }
  if rest.any fun r => r.device == device then { t with replies := rest }
  else { t.drawn with replies := rest ++ [notLeader (s.freeReply device)] }

/-- The rest of an Autoload: the byte for address `n`, then up to `k` more, into bank 0 (48_io.md R374). -/
def autoload (device : Byte) : Nat → Word → State → Out
  | k, n, s =>
    let r := s.reply device
    let t := s.operate device (.readByte device)
    if r.timeout then .next (t.setCc s.timeoutCc)
    else if badStatus r.status then .next (t.setCc (statusCc r.status))
    else
      s.guardByte 0 n
        (match k with
         | 0 => .next ((t.setByte 0 n (lowByte r.data)).setCc (ccRow false false false false))
         | k + 1 => autoload device k (n + 1) (t.setByte 0 n (lowByte r.data)))

/-- How many bytes Autoload stores after the first, up to the second operand's address (48_io.md R374). -/
def autoloadMore (ea : Word) : Nat := ea.toNat - 0x80

end Sys2Proof.Machine
end

