-- ==== Sys2Proof/Machine/InputOutput.lean ====
section
/-! DEFINITION. Input/output instructions (48_io.md). All are privileged (R360). -/

namespace Sys2Proof.Machine

/-- AIR (48_io.md R364): the device number to R1, then the status to R2, CC the status bits 4:7. -/
def execAir (r1 r2 : Nibble) (s : State) : Out :=
  s.privileged
    (.next ((((s.acknowledged.setReg r1 s.acknowledge.device).setReg r2 (byteWord s.acknowledge.status)).setCc
      (statusCc s.acknowledge.status)).drawn.advance len2))

/-- AI (48_io.md R365): the status byte to OBANK:EA, which is formed before R1 is written. -/
def execAi (r1 x2 : Nibble) (a2 : Word) (s : State) : Out :=
  s.privileged
    (s.guardByte s.psw.obank (s.ea x2 a2)
      (.next ((((s.acknowledged.setReg r1 s.acknowledge.device).setByte s.psw.obank (s.ea x2 a2)
        s.acknowledge.status).setCc (statusCc s.acknowledge.status)).drawn.advance len4)))

/-- SSR (48_io.md R366): the status to R2, CC the status bits 4:7. -/
def execSsr (r1 r2 : Nibble) (s : State) : Out :=
  s.privileged
    (let d := s.device r1
     .next ((((s.operate d (.sense d)).setReg r2 (byteWord (s.sensed d))).setCc (statusCc (s.sensed d))).advance
       len2))

/-- SS (48_io.md R367): the status byte to OBANK:EA. -/
def execSs (r1 x2 : Nibble) (a2 : Word) (s : State) : Out :=
  s.privileged
    (let d := s.device r1
     s.guardByte s.psw.obank (s.ea x2 a2)
       (.next ((((s.operate d (.sense d)).setByte s.psw.obank (s.ea x2 a2) (s.sensed d)).setCc
         (statusCc (s.sensed d))).advance len4)))

/-- A command byte to a device: V set when it times out or cannot complete (48_io.md R368). -/
def outputCommand (len : Word) (d b : Byte) (s : State) : State :=
  ((s.operate d (.command d b)).setCc
    (s.onlyV ((s.reply d).timeout || (s.reply d).cannot))).advance len

/-- OCR (48_io.md R368). -/
def execOcr (r1 r2 : Nibble) (s : State) : Out :=
  s.privileged (.next (outputCommand len2 (s.device r1) (lowByte (s.reg r2)) s))

/-- OC (48_io.md R369). -/
def execOc (r1 x2 : Nibble) (a2 : Word) (s : State) : Out :=
  s.privileged (s.operandByte x2 a2 fun b => .next (outputCommand len4 (s.device r1) b s))

/-- RDR (48_io.md R370). -/
def execRdr (r1 r2 : Nibble) (s : State) : Out :=
  s.privileged
    (let d := s.device r1
     inputData len2 d (.readByte d) (byteWord (lowByte (s.reply d).data)) (fun v t => .next (t.setReg r2 v)) s)

/-- RD (48_io.md R371). The byte's place is checked where it is stored (log 49). -/
def execRd (r1 x2 : Nibble) (a2 : Word) (s : State) : Out :=
  s.privileged
    (let d := s.device r1
     inputData len4 d (.readByte d) (s.reply d).data
       (fun v t => t.writeByte s.psw.obank (s.ea x2 a2) (lowByte v)) s)

/-- Data to a device: V set when it times out (48_io.md R372, R378). -/
def outputData (len : Word) (d : Byte) (op : BusOp) (s : State) : State :=
  ((s.operate d op).setCc (s.onlyV (s.reply d).timeout)).advance len

/-- WDR (48_io.md R372). -/
def execWdr (r1 r2 : Nibble) (s : State) : Out :=
  s.privileged (.next (outputData len2 (s.device r1) (.writeByte (s.device r1) (lowByte (s.reg r2))) s))

/-- WD (48_io.md R373). -/
def execWd (r1 x2 : Nibble) (a2 : Word) (s : State) : Out :=
  s.privileged
    (s.operandByte x2 a2 fun b => .next (outputData len4 (s.device r1) (.writeByte (s.device r1) b) s))

/-- AL (48_io.md R374): the command byte of location 79 to the device of location 78, once; then bytes into bank 0
from 80 on, up to the second operand's address, the leader skipped. -/
def execAl (r1 x2 : Nibble) (a2 : Word) (s : State) : Out :=
  s.privileged (require (r1 == 0) .mustBeZero
    (let d := s.byteAt 0 0x0078
     let t := s.operate d (.command d (s.byteAt 0 0x0079))
     if (s.reply d).timeout then .next ((t.setCc s.timeoutCc).advance len4)
     else andThen (autoload d (autoloadMore (s.ea x2 a2)) 0x0080 (t.afterLeader d)) fun u =>
       .next (u.advance len4)))

/-- RHR (48_io.md R376). -/
def execRhr (r1 r2 : Nibble) (s : State) : Out :=
  s.privileged
    (let d := s.device r1
     inputData len2 d (.readHalf d) (s.reply d).data (fun v t => .next (t.setReg r2 v)) s)

/-- RH (48_io.md R377). An odd address is refused whatever the device answers; that the halfword's place is memory is
checked where it is stored (log 49). -/
def execRh (r1 x2 : Nibble) (a2 : Word) (s : State) : Out :=
  s.privileged
    (let d := s.device r1
     require (evenAddr (s.ea x2 a2)) .oddAddress
       (inputData len4 d (.readHalf d) (s.reply d).data
         (fun v t => t.writeHalf s.psw.obank (s.ea x2 a2) v) s))

/-- WHR (48_io.md R378). -/
def execWhr (r1 r2 : Nibble) (s : State) : Out :=
  s.privileged (.next (outputData len2 (s.device r1) (.writeHalf (s.device r1) (s.reg r2)) s))

/-- WH (48_io.md R379). -/
def execWh (r1 x2 : Nibble) (a2 : Word) (s : State) : Out :=
  s.privileged
    (s.operandHalf x2 a2 fun h => .next (outputData len4 (s.device r1) (.writeHalf (s.device r1) h) s))

/-- RBR (48_io.md R381): the limits are in R2, R2+1. -/
def execRbr (r1 r2 : Nibble) (s : State) : Out :=
  s.privileged (require (pairReg r2) .registerField
    (andThen (readBlock (s.device r1) (blockLength (s.reg r2) (s.reg (r2 + 1))) (s.reg r2) s) fun t =>
      .next (t.advance len2)))

/-- RB (48_io.md R382): the limits are the halfwords at EA and EA + 2, read before the first transfer. -/
def execRb (r1 x2 : Nibble) (a2 : Word) (s : State) : Out :=
  s.privileged (s.operandFull x2 a2 fun w =>
    andThen (readBlock (s.device r1) (blockLength (w.extractLsb' 16 16) (w.extractLsb' 0 16))
      (w.extractLsb' 16 16) s) fun t => .next (t.advance len4))

/-- WBR (48_io.md R383). -/
def execWbr (r1 r2 : Nibble) (s : State) : Out :=
  s.privileged (require (pairReg r2) .registerField
    (andThen (writeBlock (s.device r1) (blockLength (s.reg r2) (s.reg (r2 + 1))) (s.reg r2) s) fun t =>
      .next (t.advance len2)))

/-- WB (48_io.md R384). -/
def execWb (r1 x2 : Nibble) (a2 : Word) (s : State) : Out :=
  s.privileged (s.operandFull x2 a2 fun w =>
    andThen (writeBlock (s.device r1) (blockLength (w.extractLsb' 16 16) (w.extractLsb' 0 16))
      (w.extractLsb' 16 16) s) fun t => .next (t.advance len4))

end Sys2Proof.Machine
end

