-- ==== Sys2Proof/Machine/ListOps.lean ====
section
/-! DEFINITION. The circular list and the list processing instructions (49_list_trig_augment.md R400 to R405). The
header is four bytes: slots, slots used, current top, next bottom; the slots follow it. -/

namespace Sys2Proof.Machine

/-- NUMBER OF SLOTS IN THE LIST (49_list_trig_augment.md R400). -/
def State.listSlots (s : State) (b : Bank) (a : Word) : Byte := s.byteAt b a

/-- NUMBER OF SLOTS USED (49_list_trig_augment.md R400). -/
def State.listUsed (s : State) (b : Bank) (a : Word) : Byte := s.byteAt b (a + 1)

/-- CURRENT TOP (49_list_trig_augment.md R400). -/
def State.listTop (s : State) (b : Bank) (a : Word) : Byte := s.byteAt b (a + 2)

/-- NEXT BOTTOM (49_list_trig_augment.md R400). -/
def State.listBottom (s : State) (b : Bank) (a : Word) : Byte := s.byteAt b (a + 3)

/-- The address of a slot, modulo 65,536 (49_list_trig_augment.md R400, R401). -/
def slotAddr (a : Word) (i : Byte) : Word := a + 4 + 2 * i.setWidth 16

/-- The slot before another, from zero to the maximum slot number: list wrap (49_list_trig_augment.md R402, R405). -/
def slotBefore (n i : Byte) : Byte := if i = 0 then n - 1 else i - 1

/-- The slot after another, from the maximum slot number to zero: list wrap (49_list_trig_augment.md R403, R404). -/
def slotAfter (n i : Byte) : Byte := if n.toNat ≤ i.toNat + 1 then 0 else i + 1

/-- The accesses to a header: the list's address is even, and the bytes read, which are the number of slots, the number
used and the pointer in use at `p`, are memory (49_list_trig_augment.md R401). The other pointer is not accessed. -/
def State.guardHeader (s : State) (b : Bank) (a p : Word) (out : Out) : Out :=
  require (evenAddr a) .oddAddress (s.guardByte b a (s.guardByte b (a + 1) (s.guardByte b p out)))

/-- A consistent header: used at most the number of slots, the pointer in use at most the maximum slot number; else
refused (49_list_trig_augment.md R401, log 23). -/
def consistent (n used pointer : Byte) (out : Out) : Out :=
  require (decide (used.toNat ≤ n.toNat ∧ pointer.toNat < n.toNat)) .listHeader out

/-- Add an element at the top of a list that is not full (49_list_trig_augment.md R402): the top pointer moves back,
then the element goes into its slot. -/
def State.addTop (s : State) (b : Bank) (a : Word) (v : Word) : Out :=
  let n := s.listSlots b a
  let top := slotBefore n (s.listTop b a)
  consistent n (s.listUsed b a) (s.listTop b a)
    (s.guardHalf b (slotAddr a top)
      (.next (((s.setByte b (a + 1) (s.listUsed b a + 1)).setByte b (a + 2) top).setHalf b (slotAddr a top) v)))

/-- Add an element at the bottom of a list that is not full (49_list_trig_augment.md R403): the element goes into the
slot of the bottom pointer, then the pointer moves on. -/
def State.addBottom (s : State) (b : Bank) (a : Word) (v : Word) : Out :=
  let n := s.listSlots b a
  let bot := s.listBottom b a
  consistent n (s.listUsed b a) bot
    (s.guardHalf b (slotAddr a bot)
      (.next (((s.setHalf b (slotAddr a bot) v).setByte b (a + 1) (s.listUsed b a + 1)).setByte b (a + 3)
        (slotAfter n bot))))

/-- The Condition Code of an overflow or underflow of a list (49_list_trig_augment.md R402, R404). -/
def listOverCc : Cc := ccRow false true false false

/-- The Condition Code of a removal: G while the list is not yet empty (49_list_trig_augment.md R404). -/
def removedCc (used : Byte) : Cc := ccRow false false (!(used - 1 == 0)) false

/-- ATL (49_list_trig_augment.md R402). -/
def execAtl (r1 x2 : Nibble) (a2 : Word) (s : State) : Out :=
  let b := s.psw.obank
  let a := s.ea x2 a2
  s.guardHeader b a (a + 2)
    (if s.listUsed b a = s.listSlots b a then .next ((s.setCc listOverCc).advance len4)
     else andThen (s.addTop b a (s.reg r1)) fun t =>
       .next ((t.setCc (ccRow false false false false)).advance len4))

/-- ABL (49_list_trig_augment.md R403). -/
def execAbl (r1 x2 : Nibble) (a2 : Word) (s : State) : Out :=
  let b := s.psw.obank
  let a := s.ea x2 a2
  s.guardHeader b a (a + 3)
    (if s.listUsed b a = s.listSlots b a then .next ((s.setCc listOverCc).advance len4)
     else andThen (s.addBottom b a (s.reg r1)) fun t =>
       .next ((t.setCc (ccRow false false false false)).advance len4))

/-- RTL (49_list_trig_augment.md R404): the element at the top pointer to R1, then the pointer moves on. -/
def execRtl (r1 x2 : Nibble) (a2 : Word) (s : State) : Out :=
  let b := s.psw.obank
  let a := s.ea x2 a2
  let n := s.listSlots b a
  let used := s.listUsed b a
  let top := s.listTop b a
  s.guardHeader b a (a + 2)
    (if used = 0 then .next ((s.setCc listOverCc).advance len4)
     else consistent n used top
       (s.readHalf b (slotAddr a top) fun v =>
         .next ((((s.setReg r1 v).setByte b (a + 1) (used - 1)).setByte b (a + 2) (slotAfter n top)).setCc
           (removedCc used) |>.advance len4)))

/-- RBL (49_list_trig_augment.md R405): the bottom pointer moves back, then the element there goes to R1. -/
def execRbl (r1 x2 : Nibble) (a2 : Word) (s : State) : Out :=
  let b := s.psw.obank
  let a := s.ea x2 a2
  let n := s.listSlots b a
  let used := s.listUsed b a
  let bot := slotBefore n (s.listBottom b a)
  s.guardHeader b a (a + 3)
    (if used = 0 then .next ((s.setCc listOverCc).advance len4)
     else consistent n used (s.listBottom b a)
       (s.readHalf b (slotAddr a bot) fun v =>
         .next ((((s.setReg r1 v).setByte b (a + 1) (used - 1)).setByte b (a + 3) bot).setCc
           (removedCc used) |>.advance len4)))

end Sys2Proof.Machine
end

