-- ==== Sys2Proof/Machine/LoadStore.lean ====
section
/-! DEFINITION. Fixed-point load and store instructions (40_load_store.md). None is privileged, none raises an
interrupt. -/

namespace Sys2Proof.Machine

/-- A halfword into R1 with CC <- LoadCC, then the next instruction (40_load_store.md R140). -/
def loadHalf (len : Word) (r1 : Nibble) (v : Word) (s : State) : State :=
  (((s.setReg r1 v).setCc (s.loadCc v)).drawn).advance len

/-- A fullword into R1, R1+1 with CC <- LoadCC, then the next instruction (40_load_store.md R140). -/
def loadFull (len : Word) (r1 : Nibble) (v : Full) (s : State) : State :=
  (((s.setPair r1 v).setCc (s.loadCc v)).drawn).advance len

/-- LIS (40_load_store.md R141). -/
def execLis (r1 n : Nibble) (s : State) : Out := .next (loadHalf len2 r1 (shortValue n) s)

/-- LCS (40_load_store.md R142). -/
def execLcs (r1 n : Nibble) (s : State) : Out := .next (loadHalf len2 r1 (-shortValue n) s)

/-- LHR (40_load_store.md R143). -/
def execLhr (r1 r2 : Nibble) (s : State) : Out := .next (loadHalf len2 r1 (s.reg r2) s)

/-- LHI (40_load_store.md R144). -/
def execLhi (r1 x2 : Nibble) (i2 : Word) (s : State) : Out := .next (loadHalf len4 r1 (s.ea x2 i2) s)

/-- A halfword load from a bank (40_load_store.md R145, R146). -/
def loadFrom (bank : Bank) (r1 x2 : Nibble) (a2 : Word) (s : State) : Out :=
  s.readHalf bank (s.ea x2 a2) fun v => .next (loadHalf len4 r1 v s)

/-- LH (40_load_store.md R145). -/
def execLh (r1 x2 : Nibble) (a2 : Word) (s : State) : Out := loadFrom s.psw.obank r1 x2 a2 s

/-- LH0 (40_load_store.md R146). -/
def execLh0 (r1 x2 : Nibble) (a2 : Word) (s : State) : Out := loadFrom 0 r1 x2 a2 s

/-- LH1 (40_load_store.md R147). -/
def execLh1 (r1 x2 : Nibble) (a2 : Word) (s : State) : Out := loadFrom 1 r1 x2 a2 s

/-- LH2 (40_load_store.md R148). -/
def execLh2 (r1 x2 : Nibble) (a2 : Word) (s : State) : Out := loadFrom 2 r1 x2 a2 s

/-- LH3 (40_load_store.md R149). -/
def execLh3 (r1 x2 : Nibble) (a2 : Word) (s : State) : Out := loadFrom 3 r1 x2 a2 s

/-- How many registers LM and STM transfer: R1 to 15 (40_load_store.md R150, R158). -/
def manyCount (r1 : Nibble) : Nat := 16 - r1.toNat

/-- The registers from `r` on, loaded from successive halfwords (40_load_store.md R150). -/
def loadMany (bank : Bank) : Nat → Nibble → Word → State → State
  | 0, _, _, s => s
  | n + 1, r, a, s => loadMany bank n (r + 1) (a + 2) (s.setReg r (s.halfAt bank a))

/-- LM (40_load_store.md R150): the address is computed once, before any register is written. CC unchanged. -/
def execLm (r1 x2 : Nibble) (a2 : Word) (s : State) : Out :=
  s.guardHalves s.psw.obank (manyCount r1) (s.ea x2 a2)
    (.next ((loadMany s.psw.obank (manyCount r1) r1 (s.ea x2 a2) s).advance len4))

/-- LDPR (40_load_store.md R151). -/
def execLdpr (r1 r2 : Nibble) (s : State) : Out :=
  require (evenReg r1 && evenReg r2) .registerField (.next (loadFull len2 r1 (s.pair r2) s))

/-- LDP (40_load_store.md R152). -/
def execLdp (r1 x2 : Nibble) (a2 : Word) (s : State) : Out :=
  require (evenReg r1) .registerField (s.operandFull x2 a2 fun v => .next (loadFull len4 r1 v s))

/-- A halfword store into a bank, CC unchanged (40_load_store.md R153, R154). -/
def storeInto (bank : Bank) (r1 x2 : Nibble) (a2 : Word) (s : State) : Out :=
  andThen (s.writeHalf bank (s.ea x2 a2) (s.reg r1)) fun t => .next (t.advance len4)

/-- STH (40_load_store.md R153). -/
def execSth (r1 x2 : Nibble) (a2 : Word) (s : State) : Out := storeInto s.psw.obank r1 x2 a2 s

/-- STH0 (40_load_store.md R154). -/
def execSth0 (r1 x2 : Nibble) (a2 : Word) (s : State) : Out := storeInto 0 r1 x2 a2 s

/-- STH1 (40_load_store.md R155). -/
def execSth1 (r1 x2 : Nibble) (a2 : Word) (s : State) : Out := storeInto 1 r1 x2 a2 s

/-- STH2 (40_load_store.md R156). -/
def execSth2 (r1 x2 : Nibble) (a2 : Word) (s : State) : Out := storeInto 2 r1 x2 a2 s

/-- STH3 (40_load_store.md R157). -/
def execSth3 (r1 x2 : Nibble) (a2 : Word) (s : State) : Out := storeInto 3 r1 x2 a2 s

/-- The registers from `r` on, stored into successive halfwords (40_load_store.md R158). -/
def storeMany (bank : Bank) : Nat → Nibble → Word → State → State
  | 0, _, _, s => s
  | n + 1, r, a, s => storeMany bank n (r + 1) (a + 2) (s.setHalf bank a (s.reg r))

/-- STM (40_load_store.md R158). CC and registers unchanged. -/
def execStm (r1 x2 : Nibble) (a2 : Word) (s : State) : Out :=
  s.guardHalves s.psw.obank (manyCount r1) (s.ea x2 a2)
    (.next ((storeMany s.psw.obank (manyCount r1) r1 (s.ea x2 a2) s).advance len4))

/-- STDP (40_load_store.md R159). CC unchanged. -/
def execStdp (r1 x2 : Nibble) (a2 : Word) (s : State) : Out :=
  require (evenReg r1) .registerField
    (andThen (s.writeFull s.psw.obank (s.ea x2 a2) (s.pair r1)) fun t => .next (t.advance len4))

end Sys2Proof.Machine
end

