-- ==== Sys2Proof/Machine/NoOps.lean ====
section
/-! DEFINITION. The 48-bit floating-point codes (46_floating_point.md R320 to R333): each changes nothing but the
Location Counter. No operand is read and no field is checked. -/

namespace Sys2Proof.Machine

/-- LFR (46_floating_point.md R321). -/
def execLfr (_r1 _r2 : Nibble) (s : State) : Out := .next (s.advance len2)

/-- LF (46_floating_point.md R322). -/
def execLf (_r1 _x2 : Nibble) (_a2 : Word) (s : State) : Out := .next (s.advance len4)

/-- STF (46_floating_point.md R323). -/
def execStf (_r1 _x2 : Nibble) (_a2 : Word) (s : State) : Out := .next (s.advance len4)

/-- AFR (46_floating_point.md R324). -/
def execAfr (_r1 _r2 : Nibble) (s : State) : Out := .next (s.advance len2)

/-- AF (46_floating_point.md R325). -/
def execAf (_r1 _x2 : Nibble) (_a2 : Word) (s : State) : Out := .next (s.advance len4)

/-- SFR (46_floating_point.md R326). -/
def execSfr (_r1 _r2 : Nibble) (s : State) : Out := .next (s.advance len2)

/-- SF (46_floating_point.md R327). -/
def execSf (_r1 _x2 : Nibble) (_a2 : Word) (s : State) : Out := .next (s.advance len4)

/-- CFR (46_floating_point.md R328). -/
def execCfr (_r1 _r2 : Nibble) (s : State) : Out := .next (s.advance len2)

/-- CF (46_floating_point.md R329). -/
def execCf (_r1 _x2 : Nibble) (_a2 : Word) (s : State) : Out := .next (s.advance len4)

/-- MFR (46_floating_point.md R330). -/
def execMfr (_r1 _r2 : Nibble) (s : State) : Out := .next (s.advance len2)

/-- MF (46_floating_point.md R331). -/
def execMf (_r1 _x2 : Nibble) (_a2 : Word) (s : State) : Out := .next (s.advance len4)

/-- DFR (46_floating_point.md R332). -/
def execDfr (_r1 _r2 : Nibble) (s : State) : Out := .next (s.advance len2)

/-- DF (46_floating_point.md R333). -/
def execDf (_r1 _x2 : Nibble) (_a2 : Word) (s : State) : Out := .next (s.advance len4)

end Sys2Proof.Machine
end

