-- ==== Sys2Proof/Machine/Shift.lean ====
section
/-! DEFINITION. Shift and rotate instructions (44_shift_rotate.md). A shift by zero leaves C free (R252, log 24). -/

namespace Sys2Proof.Machine

/-- A shifted operand and the last bit shifted out. -/
structure Shifted (w : Nat) where
  /-- The result. -/
  value : BitVec w
  /-- The carry. -/
  carry : Bool

/-- Shift left logical: the carry is original bit n-1 (44_shift_rotate.md section 2). -/
def shiftLeftLogical {w : Nat} (free : Bool) (v : BitVec w) (n : Nat) : Shifted w :=
  { value := v <<< n, carry := if n = 0 then free else v.getMsbD (n - 1) }

/-- Shift right logical: the carry is original bit w-n (44_shift_rotate.md section 3). -/
def shiftRightLogical {w : Nat} (free : Bool) (v : BitVec w) (n : Nat) : Shifted w :=
  { value := v >>> n, carry := if n = 0 then free else v.getMsbD (w - n) }

/-- Shift left arithmetic: bit 0 is kept, the carry is original bit n (44_shift_rotate.md section 5). -/
def shiftLeftArithmetic {w : Nat} (free : Bool) (v : BitVec w) (n : Nat) : Shifted w :=
  { value := if v.msb then (v <<< n) ||| BitVec.intMin w else (v <<< n) &&& ~~~(BitVec.intMin w)
    carry := if n = 0 then free else v.getMsbD n }

/-- Shift right arithmetic: the sign fills, the carry is original bit w-n (44_shift_rotate.md section 6). -/
def shiftRightArithmetic {w : Nat} (free : Bool) (v : BitVec w) (n : Nat) : Shifted w :=
  { value := v.sshiftRight n, carry := if n = 0 then free else v.getMsbD (w - n) }

/-- A shifted halfword into R1 with CC <- ShiftCC (44_shift_rotate.md R250). -/
def putShift (len : Word) (r1 : Nibble) (f : Shifted 16) (s : State) : State :=
  (((s.setReg r1 f.value).setCc (shiftCc f.value f.carry)).drawn).advance len

/-- A shifted fullword into R1, R1+1 with CC <- ShiftCC (44_shift_rotate.md R250). -/
def putShiftFull (r1 : Nibble) (f : Shifted 32) (s : State) : State :=
  (((s.setPair r1 f.value).setCc (shiftCc f.value f.carry)).drawn).advance len4

/-- A shifted doubleword into R1 to R1+3 with CC <- ShiftCC (44_shift_rotate.md R250). -/
def putShiftQuad (r1 : Nibble) (f : Shifted 64) (s : State) : State :=
  (((s.setQuad r1 f.value).setCc (shiftCc f.value f.carry)).drawn).advance len4

/-- SLLS (44_shift_rotate.md R253). -/
def execSlls (r1 n : Nibble) (s : State) : Out :=
  .next (putShift len2 r1 (shiftLeftLogical (s.freeBit 0) (s.reg r1) n.toNat) s)

/-- SLHL (44_shift_rotate.md R254). -/
def execSlhl (r1 x2 : Nibble) (i2 : Word) (s : State) : Out :=
  .next (putShift len4 r1 (shiftLeftLogical (s.freeBit 0) (s.reg r1) (count4 (s.ea x2 i2))) s)

/-- SLL (44_shift_rotate.md R255). -/
def execSll (r1 x2 : Nibble) (i2 : Word) (s : State) : Out :=
  require (evenReg r1) .registerField
    (.next (putShiftFull r1 (shiftLeftLogical (s.freeBit 0) (s.pair r1) (count5 (s.ea x2 i2))) s))

/-- SLQL (44_shift_rotate.md R256). -/
def execSlql (r1 x2 : Nibble) (i2 : Word) (s : State) : Out :=
  require (quadReg r1) .registerField
    (.next (putShiftQuad r1 (shiftLeftLogical (s.freeBit 0) (s.quad r1) (count6 (s.ea x2 i2))) s))

/-- SRLS (44_shift_rotate.md R257). -/
def execSrls (r1 n : Nibble) (s : State) : Out :=
  .next (putShift len2 r1 (shiftRightLogical (s.freeBit 0) (s.reg r1) n.toNat) s)

/-- SRHL (44_shift_rotate.md R258). -/
def execSrhl (r1 x2 : Nibble) (i2 : Word) (s : State) : Out :=
  .next (putShift len4 r1 (shiftRightLogical (s.freeBit 0) (s.reg r1) (count4 (s.ea x2 i2))) s)

/-- SRL (44_shift_rotate.md R259). -/
def execSrl (r1 x2 : Nibble) (i2 : Word) (s : State) : Out :=
  require (evenReg r1) .registerField
    (.next (putShiftFull r1 (shiftRightLogical (s.freeBit 0) (s.pair r1) (count5 (s.ea x2 i2))) s))

/-- SRQL (44_shift_rotate.md R260). -/
def execSrql (r1 x2 : Nibble) (i2 : Word) (s : State) : Out :=
  require (quadReg r1) .registerField
    (.next (putShiftQuad r1 (shiftRightLogical (s.freeBit 0) (s.quad r1) (count6 (s.ea x2 i2))) s))

/-- A rotated fullword into R1, R1+1: C and V are 0 whatever the count (44_shift_rotate.md R261). -/
def putRotate (r1 : Nibble) (r : Full) (s : State) : State :=
  ((s.setPair r1 r).setCc (shiftCc r false)).advance len4

/-- RLL (44_shift_rotate.md R261). -/
def execRll (r1 x2 : Nibble) (i2 : Word) (s : State) : Out :=
  require (evenReg r1) .registerField
    (.next (putRotate r1 ((s.pair r1).rotateLeft (count5 (s.ea x2 i2))) s))

/-- RRL (44_shift_rotate.md R262). -/
def execRrl (r1 x2 : Nibble) (i2 : Word) (s : State) : Out :=
  require (evenReg r1) .registerField
    (.next (putRotate r1 ((s.pair r1).rotateRight (count5 (s.ea x2 i2))) s))

/-- SLHA (44_shift_rotate.md R263). -/
def execSlha (r1 x2 : Nibble) (i2 : Word) (s : State) : Out :=
  .next (putShift len4 r1 (shiftLeftArithmetic (s.freeBit 0) (s.reg r1) (count4 (s.ea x2 i2))) s)

/-- SLA (44_shift_rotate.md R264). -/
def execSla (r1 x2 : Nibble) (i2 : Word) (s : State) : Out :=
  require (evenReg r1) .registerField
    (.next (putShiftFull r1 (shiftLeftArithmetic (s.freeBit 0) (s.pair r1) (count5 (s.ea x2 i2))) s))

/-- SLQA (44_shift_rotate.md R265). -/
def execSlqa (r1 x2 : Nibble) (i2 : Word) (s : State) : Out :=
  require (quadReg r1) .registerField
    (.next (putShiftQuad r1 (shiftLeftArithmetic (s.freeBit 0) (s.quad r1) (count6 (s.ea x2 i2))) s))

/-- SRHA (44_shift_rotate.md R266). -/
def execSrha (r1 x2 : Nibble) (i2 : Word) (s : State) : Out :=
  .next (putShift len4 r1 (shiftRightArithmetic (s.freeBit 0) (s.reg r1) (count4 (s.ea x2 i2))) s)

/-- SRA (44_shift_rotate.md R267). -/
def execSra (r1 x2 : Nibble) (i2 : Word) (s : State) : Out :=
  require (evenReg r1) .registerField
    (.next (putShiftFull r1 (shiftRightArithmetic (s.freeBit 0) (s.pair r1) (count5 (s.ea x2 i2))) s))

/-- SRQA (44_shift_rotate.md R268). -/
def execSrqa (r1 x2 : Nibble) (i2 : Word) (s : State) : Out :=
  require (quadReg r1) .registerField
    (.next (putShiftQuad r1 (shiftRightArithmetic (s.freeBit 0) (s.quad r1) (count6 (s.ea x2 i2))) s))

end Sys2Proof.Machine
end

