-- ==== Sys2Proof/Machine/System.lean ====
section
/-! DEFINITION. System control instructions (47_system_control.md). LPSW, EPSR and SINT are privileged (R340). -/

namespace Sys2Proof.Machine

/-- LPSW (47_system_control.md R341): all 32 bits of the PSW, then the examination of the termination queue. -/
def execLpsw (r1 x2 : Nibble) (i2 : Word) (s : State) : Out :=
  s.privileged (require (r1 == 0) .mustBeZero
    (s.operandFull x2 i2 fun w => (s.loadPsw w).examineQueue))

/-- EPOR (47_system_control.md R342): PSW(10:11) from R1(10:11), the former status to R1. R2 is ignored. -/
def execEpor (r1 _r2 : Nibble) (s : State) : Out :=
  .next ((({ s with psw := { s.psw with obank := (s.reg r1).extractLsb' 4 2 } }).setReg r1 s.psw.status).advance len2)

/-- EPPR (47_system_control.md R343): PSW(8:11) from R1, the Location Counter from R1+1; the former status and the
next address to R1, R1+1 (log 16). R2 is ignored. -/
def execEppr (r1 _r2 : Nibble) (s : State) : Out :=
  require (pairReg r1) .registerField
    (.next ((({ s with
        psw := { s.psw with pbank := (s.reg r1).extractLsb' 6 2, obank := (s.reg r1).extractLsb' 4 2,
                            lc := s.reg (r1 + 1) } }).setReg r1 s.psw.status).setReg (r1 + 1) (s.nextLc len2)))

/-- EPSR (47_system_control.md R344): R1 receives the status first, then the status is loaded from R2. -/
def execEpsr (r1 r2 : Nibble) (s : State) : Out :=
  s.privileged
    (let t := s.setReg r1 s.psw.status
     ((t.setStatus (t.reg r2)).advance len2).examineQueue)

/-- SINT (47_system_control.md R345): the Service Pointer action for device OP2(8:15). -/
def execSint (r1 x2 : Nibble) (i2 : Word) (s : State) : Out :=
  s.privileged (require (r1 == 0) .mustBeZero (s.serviceAction (lowByte (s.ea x2 i2)) (s.nextLc len4)))

/-- SVC (47_system_control.md R346). -/
def execSvc (r1 x2 : Nibble) (i2 : Word) (s : State) : Out :=
  .next (s.supervisorCall r1 (s.ea x2 i2) (s.nextLc len4))

end Sys2Proof.Machine
end

