-- ==== Sys2Proof/Machine/TrigMath.lean ====
section
/-! DEFINITION. The accuracy relations of the trigonometric instructions (49_list_trig_augment.md R426) over the
integers. Sines and cosines are fixed-point numbers with 128 binary places; `slop` bounds their error, which is too
small to admit an integer that the relations over the reals do not (log 25). -/

namespace Sys2Proof.Machine

/-- One, with 128 binary places. -/
def fixedOne : Int := 2 ^ 128

/-- The circle constant with 128 binary places, rounded down. -/
def fixedPi : Int := 1069028584064966747859680373161870783300

/-- A bound of the error of the fixed-point sines and cosines, in units of the last place. -/
def slop : Int := 1024

/-- A power series in x^2: `k` more terms, each the one before times -x^2 / (j (j + 1)). -/
def series : Nat → Nat → Int → Int → Int
  | 0, _, _, _ => 0
  | k + 1, j, x2, term => term + series k (j + 2) x2 (-(term * x2 / fixedOne) / (j * (j + 1) : Nat))

/-- Cosine and sine of an angle in the first quadrant, `r` units of pi / 2^31. -/
def quadrantCosSin (r : Nat) : Int × Int :=
  let x := (r : Int) * fixedPi / 2 ^ 31
  let x2 := x * x / fixedOne
  (series 22 1 x2 fixedOne, series 22 2 x2 x)

/-- Cosine and sine of an angle in BAMS (49_list_trig_augment.md R415), with 128 binary places. -/
def fixedCosSin (t : Nat) : Int × Int :=
  let p := quadrantCosSin (t % 2 ^ 30)
  match t / 2 ^ 30 % 4 with
  | 0 => p
  | 1 => (-p.2, p.1)
  | 2 => (-p.1, -p.2)
  | _ => (p.2, -p.1)

/-- An interval of integers. -/
structure Interval where
  /-- Its least member. -/
  lo : Int
  /-- Its greatest member. -/
  hi : Int

/-- The member of an interval that a free value selects. -/
def Interval.pick (i : Interval) (free : Full) : Int := i.lo + (free.toNat : Int) % (i.hi - i.lo + 1)

/-- The integers within `e` of a fixed-point number scaled by 2^30 (49_list_trig_augment.md R426 CosSinOk). -/
def nearFixed (v : Int) (e : Nat) : Interval :=
  { lo := -((slop - v) / 2 ^ 98) - e, hi := (v + slop) / 2 ^ 98 + e }

/-- The greatest number below 2^i, or with `k` added, that a falling test admits and that is at most `top`. -/
def greatest (test : Nat → Bool) (top : Nat) : Nat → Nat → Nat
  | 0, k => k
  | i + 1, k => greatest test top i (if k + 2 ^ i ≤ top && test (k + 2 ^ i) then k + 2 ^ i else k)

/-- The square root of a natural number below 2^64, rounded down. -/
def rootFloor (n : Nat) : Nat := greatest (fun k => decide (k * k ≤ n)) (2 ^ 32) 33 0

/-- The square root of a natural number below 2^64, rounded up. -/
def rootCeil (n : Nat) : Nat := if rootFloor n * rootFloor n = n then rootFloor n else rootFloor n + 1

/-- The integers within `e` of a square root (49_list_trig_augment.md R426 HypOk, SqdOk). -/
def nearRoot (n e : Nat) : Interval := { lo := (rootCeil n : Int) - e, hi := (rootFloor n : Int) + e }

/-- An angle of the first quadrant, in BAMS units: rounded down and rounded up. -/
structure Angle where
  /-- Rounded down. -/
  floor : Nat
  /-- Rounded up. -/
  ceil : Nat

/-- The angle that a falling real function of it, given with its error, crosses zero at. Of the functions below none
lies within twice its error of zero at an angle in BAMS where it is not zero (log 25), so that both sides of the angle
are exact. -/
def crossing (f : Nat → Int) (err : Int) : Angle :=
  let k := greatest (fun k => decide (-err ≤ f k)) (2 ^ 30) 31 0
  { floor := k, ceil := if f k ≤ err then k else k + 1 }

/-- The arc sine of y / z for 0 ≤ y ≤ z, 0 < z (49_list_trig_augment.md R420). -/
def arcSine (z y : Nat) : Angle :=
  crossing (fun k => (y : Int) * fixedOne - z * (fixedCosSin k).2) (z * slop)

/-- The angle of the point (x, y) of the first quadrant (49_list_trig_augment.md R422). -/
def arcTangent (x y : Nat) : Angle :=
  crossing (fun k => (fixedCosSin k).1 * y - (fixedCosSin k).2 * x) ((x + y) * slop)

/-- The integers within `e` of `turn` plus an angle (49_list_trig_augment.md R426). -/
def Angle.after (a : Angle) (turn : Int) (e : Nat) : Interval := { lo := turn + a.ceil - e, hi := turn + a.floor + e }

/-- The integers within `e` of `turn` less an angle (49_list_trig_augment.md R426). -/
def Angle.before (a : Angle) (turn : Int) (e : Nat) : Interval :=
  { lo := turn - a.floor - e, hi := turn - a.ceil + e }

/-- The error bound of Table VI-3 at the current CPR (49_list_trig_augment.md R426). -/
def errorAt (cpr : Word) (e16 e20 e24 e28 : Nat) : Nat :=
  if cpr = 16 then e16 else if cpr = 20 then e20 else if cpr = 24 then e24 else e28

/-- E_cos (49_list_trig_augment.md R426). -/
def errorCos (cpr : Word) : Nat := errorAt cpr 0x8000 0x800 0x80 0x16

/-- E_atn (49_list_trig_augment.md R426). -/
def errorAtn (cpr : Word) : Nat := errorAt cpr 0x5000 0x500 0x50 0x13

/-- E_hyp (49_list_trig_augment.md R426). -/
def errorHyp (cpr : Word) : Nat := errorAt cpr 0x8000 0x800 0x80 0x16

/-- E_sqd (49_list_trig_augment.md R426). -/
def errorSqd (cpr : Word) : Nat := errorAt cpr 0x8000 0x800 0x80 0x17

/-- E_asn (49_list_trig_augment.md R426). -/
def errorAsn (cpr : Word) : Nat := errorAt cpr 0xD000 0xD00 0xD0 0x2A

/-- The angles admitted for the arc sine of y / |z| (49_list_trig_augment.md R426 AsnOk). -/
def asnInterval (cpr : Word) (z y : Int) : Interval :=
  if y < 0 then (arcSine z.natAbs y.natAbs).before 0 (errorAsn cpr)
  else (arcSine z.natAbs y.natAbs).after 0 (errorAsn cpr)

/-- The angles admitted for the four-quadrant angle of (x, y) (49_list_trig_augment.md R426 AtnOk), modulo 2^32. -/
def quadrantInterval (cpr : Word) (x y : Int) : Interval :=
  let a := arcTangent x.natAbs y.natAbs
  let e := errorAtn cpr
  if 0 ≤ x then if 0 ≤ y then a.after 0 e else a.before 0 e
  else if 0 ≤ y then a.before (2 ^ 31) e
  else a.after (-(2 ^ 31)) e

/-- The angles admitted for the principal value of arctan (y / x), for x < 0 (49_list_trig_augment.md R426 AtnOk). -/
def principalInterval (cpr : Word) (x y : Int) : Interval :=
  let a := arcTangent x.natAbs y.natAbs
  if 0 ≤ y then a.before 0 (errorAtn cpr) else a.after 0 (errorAtn cpr)

/-- The angles admitted for ATN and ATNR: the principal value only for x < 0, where ATN_FOUR_QUADRANT is false and
`free` asks for it (49_list_trig_augment.md R426, log 25). -/
def atnInterval (cpr : Word) (x y : Int) (free : Bool) : Interval :=
  if decide (x < 0) && !Config.atnFourQuadrant && free then principalInterval cpr x y else quadrantInterval cpr x y

/-- The greatest scalar. -/
def maxScalar : Int := 2 ^ 31 - 1

/-- Whether the root of ATN overflows: surely above or surely within the scalars, else as `free` says
(49_list_trig_augment.md R422). -/
def hypOverflows (cpr : Word) (n : Nat) (free : Bool) : Bool :=
  let e : Int := errorHyp cpr
  if (maxScalar + e) * (maxScalar + e) < n then true
  else if (n : Int) ≤ (maxScalar - e) * (maxScalar - e) then false
  else free

/-- The roots admitted for ATN: scalars that are not negative (49_list_trig_augment.md R422, R426 HypOk). -/
def hypInterval (cpr : Word) (n : Nat) : Interval :=
  let i := nearRoot n (errorHyp cpr)
  { lo := max 0 i.lo, hi := min maxScalar i.hi }

/-- The roots admitted for SQD: scalars (49_list_trig_augment.md R426 SqdOk). -/
def sqdInterval (cpr : Word) (n : Nat) : Interval :=
  let i := nearRoot n (errorSqd cpr)
  { lo := i.lo, hi := min maxScalar i.hi }

end Sys2Proof.Machine
end

