-- ==== Sys2Proof/Machine/Trig.lean ====
section
/-! DEFINITION. The trigonometric option (49_list_trig_augment.md R415 to R426). Results are any within the bounds of
R426, chosen by free values (log 25). -/

namespace Sys2Proof.Machine

/-- ECPR (49_list_trig_augment.md R417): the old precision to R1; CC unchanged. -/
def execEcpr (r1 r2 : Nibble) (s : State) : Out :=
  .next (({ s with cpr := cprValue (s.reg r2) }.setReg r1 s.cpr).advance len2)

/-- A 32-bit result of an interval, chosen by a lane of the current draw. -/
def State.pickFull (s : State) (lane : Nat) (i : Interval) : Full := BitVec.ofInt 32 (i.pick (s.freeFull lane))

/-- Cosine to R1, R1+1 and sine to R1+2, R1+3; CC unchanged (49_list_trig_augment.md R418). -/
def cosineSine (len : Word) (r1 : Nibble) (t : Full) (s : State) : State :=
  let p := fixedCosSin t.toNat
  let e := errorCos s.cpr
  ((s.setQuad r1 (s.pickFull 1 (nearFixed p.1 e) ++ s.pickFull 2 (nearFixed p.2 e))).drawn).advance len

/-- COSR (49_list_trig_augment.md R418). -/
def execCosr (r1 r2 : Nibble) (s : State) : Out :=
  require (quadReg r1 && evenReg r2) .registerField (.next (cosineSine len2 r1 (s.pair r2) s))

/-- COS (49_list_trig_augment.md R419). -/
def execCos (r1 x2 : Nibble) (a2 : Word) (s : State) : Out :=
  require (quadReg r1) .registerField (s.operandFull x2 a2 fun t => .next (cosineSine len4 r1 t s))

/-- The end of a trigonometric instruction with V; C, G, L are free (49_list_trig_augment.md R420). -/
def finishTrig (len : Word) (v : Bool) (t s : State) : State := ((t.setCc (s.onlyV v)).drawn).advance len

/-- The arc sine of y / |z| to R1, R1+1; V and no change where it does not exist (49_list_trig_augment.md R420). -/
def arcSineInto (len : Word) (r1 : Nibble) (z y : Full) (s : State) : State :=
  if z.toInt.natAbs < y.toInt.natAbs ∨ (z = 0 ∧ y = 0) then finishTrig len true s s
  else finishTrig len false (s.setPair r1 (s.pickFull 1 (asnInterval s.cpr z.toInt y.toInt))) s

/-- ASNR (49_list_trig_augment.md R420): z is in R2, R2+1 and y in R2+2, R2+3. -/
def execAsnr (r1 r2 : Nibble) (s : State) : Out :=
  require (evenReg r1 && quadReg r2) .registerField
    (.next (arcSineInto len2 r1 (s.pair r2) (s.pair (r2 + 2)) s))

/-- ASN (49_list_trig_augment.md R421): z is at EA and y at EA + 4. -/
def execAsn (r1 x2 : Nibble) (a2 : Word) (s : State) : Out :=
  require (evenReg r1) .registerField (s.operandTwo x2 a2 fun z y => .next (arcSineInto len4 r1 z y s))

/-- The sum of two squares. -/
def sumSquares (x y : Full) : Nat := x.toInt.natAbs * x.toInt.natAbs + y.toInt.natAbs * y.toInt.natAbs

/-- The angle of (x, y) to R1, R1+1 and the root of the sum of squares to R1+2, R1+3; V and no change on overflow
(49_list_trig_augment.md R422). -/
def arcTangentInto (len : Word) (r1 : Nibble) (x y : Full) (s : State) : State :=
  if x = 0 ∧ y = 0 then finishTrig len false (s.setQuad r1 0) s
  else if hypOverflows s.cpr (sumSquares x y) (s.freeBit 4) then finishTrig len true s s
  else
    finishTrig len false
      (s.setQuad r1 (s.pickFull 1 (atnInterval s.cpr x.toInt y.toInt (s.freeBit 5)) ++
        s.pickFull 2 (hypInterval s.cpr (sumSquares x y)))) s

/-- ATNR (49_list_trig_augment.md R422). -/
def execAtnr (r1 r2 : Nibble) (s : State) : Out :=
  require (quadReg r1 && quadReg r2) .registerField
    (.next (arcTangentInto len2 r1 (s.pair r2) (s.pair (r2 + 2)) s))

/-- ATN (49_list_trig_augment.md R423). -/
def execAtn (r1 x2 : Nibble) (a2 : Word) (s : State) : Out :=
  require (quadReg r1) .registerField (s.operandTwo x2 a2 fun x y => .next (arcTangentInto len4 r1 x y s))

/-- The root of the difference of the squares to R1, R1+1: exact zero for equal magnitudes, V and no change where
|x| < |y| (49_list_trig_augment.md R424). -/
def rootDifferenceInto (len : Word) (r1 : Nibble) (x y : Full) (s : State) : State :=
  let p := x.toInt.natAbs
  let q := y.toInt.natAbs
  if p < q then finishTrig len true s s
  else if p = q then finishTrig len false (s.setPair r1 0) s
  else finishTrig len false (s.setPair r1 (s.pickFull 1 (sqdInterval s.cpr (p * p - q * q)))) s

/-- SQDR (49_list_trig_augment.md R424). -/
def execSqdr (r1 r2 : Nibble) (s : State) : Out :=
  require (evenReg r1 && quadReg r2) .registerField
    (.next (rootDifferenceInto len2 r1 (s.pair r2) (s.pair (r2 + 2)) s))

/-- SQD (49_list_trig_augment.md R425). -/
def execSqd (r1 x2 : Nibble) (a2 : Word) (s : State) : Out :=
  require (evenReg r1) .registerField (s.operandTwo x2 a2 fun x y => .next (rootDifferenceInto len4 r1 x y s))

end Sys2Proof.Machine
end

