-- ==== Sys2Proof/Machine/Dispatch.lean ====
section
/-! DEFINITION. The meaning of every instruction: one arm for each row of spec/opcode_table.json. -/

namespace Sys2Proof.Machine

/-- What an instruction does in a state. -/
def exec (i : Instr) (s : State) : Host.Outcome State Fault Refusal :=
  match i with
  | .lis r1 n => Sys2Proof.Machine.execLis r1 n s
  | .lcs r1 n => Sys2Proof.Machine.execLcs r1 n s
  | .lhr r1 r2 => Sys2Proof.Machine.execLhr r1 r2 s
  | .lhi r1 x2 i2 => Sys2Proof.Machine.execLhi r1 x2 i2 s
  | .lh r1 x2 a2 => Sys2Proof.Machine.execLh r1 x2 a2 s
  | .lh0 r1 x2 a2 => Sys2Proof.Machine.execLh0 r1 x2 a2 s
  | .lh1 r1 x2 a2 => Sys2Proof.Machine.execLh1 r1 x2 a2 s
  | .lh2 r1 x2 a2 => Sys2Proof.Machine.execLh2 r1 x2 a2 s
  | .lh3 r1 x2 a2 => Sys2Proof.Machine.execLh3 r1 x2 a2 s
  | .lm r1 x2 a2 => Sys2Proof.Machine.execLm r1 x2 a2 s
  | .ldpr r1 r2 => Sys2Proof.Machine.execLdpr r1 r2 s
  | .ldp r1 x2 a2 => Sys2Proof.Machine.execLdp r1 x2 a2 s
  | .sth r1 x2 a2 => Sys2Proof.Machine.execSth r1 x2 a2 s
  | .sth0 r1 x2 a2 => Sys2Proof.Machine.execSth0 r1 x2 a2 s
  | .sth1 r1 x2 a2 => Sys2Proof.Machine.execSth1 r1 x2 a2 s
  | .sth2 r1 x2 a2 => Sys2Proof.Machine.execSth2 r1 x2 a2 s
  | .sth3 r1 x2 a2 => Sys2Proof.Machine.execSth3 r1 x2 a2 s
  | .stm r1 x2 a2 => Sys2Proof.Machine.execStm r1 x2 a2 s
  | .stdp r1 x2 a2 => Sys2Proof.Machine.execStdp r1 x2 a2 s
  | .ais r1 n => Sys2Proof.Machine.execAis r1 n s
  | .ahr r1 r2 => Sys2Proof.Machine.execAhr r1 r2 s
  | .ahi r1 x2 i2 => Sys2Proof.Machine.execAhi r1 x2 i2 s
  | .ah r1 x2 a2 => Sys2Proof.Machine.execAh r1 x2 a2 s
  | .ahm r1 x2 a2 => Sys2Proof.Machine.execAhm r1 x2 a2 s
  | .achr r1 r2 => Sys2Proof.Machine.execAchr r1 r2 s
  | .ach r1 x2 a2 => Sys2Proof.Machine.execAch r1 x2 a2 s
  | .adpr r1 r2 => Sys2Proof.Machine.execAdpr r1 r2 s
  | .adp r1 x2 a2 => Sys2Proof.Machine.execAdp r1 x2 a2 s
  | .sis r1 n => Sys2Proof.Machine.execSis r1 n s
  | .shr r1 r2 => Sys2Proof.Machine.execShr r1 r2 s
  | .shi r1 x2 i2 => Sys2Proof.Machine.execShi r1 x2 i2 s
  | .sh r1 x2 a2 => Sys2Proof.Machine.execSh r1 x2 a2 s
  | .schr r1 r2 => Sys2Proof.Machine.execSchr r1 r2 s
  | .sch r1 x2 a2 => Sys2Proof.Machine.execSch r1 x2 a2 s
  | .sdpr r1 r2 => Sys2Proof.Machine.execSdpr r1 r2 s
  | .sdp r1 x2 a2 => Sys2Proof.Machine.execSdp r1 x2 a2 s
  | .mhr r1 r2 => Sys2Proof.Machine.execMhr r1 r2 s
  | .mh r1 x2 a2 => Sys2Proof.Machine.execMh r1 x2 a2 s
  | .mhur r1 r2 => Sys2Proof.Machine.execMhur r1 r2 s
  | .mhu r1 x2 a2 => Sys2Proof.Machine.execMhu r1 x2 a2 s
  | .mdpr r1 r2 => Sys2Proof.Machine.execMdpr r1 r2 s
  | .mdp r1 x2 a2 => Sys2Proof.Machine.execMdp r1 x2 a2 s
  | .dhr r1 r2 => Sys2Proof.Machine.execDhr r1 r2 s
  | .dh r1 x2 a2 => Sys2Proof.Machine.execDh r1 x2 a2 s
  | .ddpr r1 r2 => Sys2Proof.Machine.execDdpr r1 r2 s
  | .ddp r1 x2 a2 => Sys2Proof.Machine.execDdp r1 x2 a2 s
  | .nhr r1 r2 => Sys2Proof.Machine.execNhr r1 r2 s
  | .nhi r1 x2 i2 => Sys2Proof.Machine.execNhi r1 x2 i2 s
  | .nh r1 x2 a2 => Sys2Proof.Machine.execNh r1 x2 a2 s
  | .ohr r1 r2 => Sys2Proof.Machine.execOhr r1 r2 s
  | .ohi r1 x2 i2 => Sys2Proof.Machine.execOhi r1 x2 i2 s
  | .oh r1 x2 a2 => Sys2Proof.Machine.execOh r1 x2 a2 s
  | .xhr r1 r2 => Sys2Proof.Machine.execXhr r1 r2 s
  | .xhi r1 x2 i2 => Sys2Proof.Machine.execXhi r1 x2 i2 s
  | .xh r1 x2 a2 => Sys2Proof.Machine.execXh r1 x2 a2 s
  | .thi r1 x2 i2 => Sys2Proof.Machine.execThi r1 x2 i2 s
  | .clhr r1 r2 => Sys2Proof.Machine.execClhr r1 r2 s
  | .clhi r1 x2 i2 => Sys2Proof.Machine.execClhi r1 x2 i2 s
  | .clh r1 x2 a2 => Sys2Proof.Machine.execClh r1 x2 a2 s
  | .cldpr r1 r2 => Sys2Proof.Machine.execCldpr r1 r2 s
  | .cldp r1 x2 a2 => Sys2Proof.Machine.execCldp r1 x2 a2 s
  | .chr r1 r2 => Sys2Proof.Machine.execChr r1 r2 s
  | .chi r1 x2 i2 => Sys2Proof.Machine.execChi r1 x2 i2 s
  | .ch r1 x2 a2 => Sys2Proof.Machine.execCh r1 x2 a2 s
  | .cdpr r1 r2 => Sys2Proof.Machine.execCdpr r1 r2 s
  | .cdp r1 x2 a2 => Sys2Proof.Machine.execCdp r1 x2 a2 s
  | .lbr r1 r2 => Sys2Proof.Machine.execLbr r1 r2 s
  | .lb r1 x2 a2 => Sys2Proof.Machine.execLb r1 x2 a2 s
  | .stbr r1 r2 => Sys2Proof.Machine.execStbr r1 r2 s
  | .stb r1 x2 a2 => Sys2Proof.Machine.execStb r1 x2 a2 s
  | .exbr r1 r2 => Sys2Proof.Machine.execExbr r1 r2 s
  | .clb r1 x2 a2 => Sys2Proof.Machine.execClb r1 x2 a2 s
  | .slls r1 n => Sys2Proof.Machine.execSlls r1 n s
  | .slhl r1 x2 i2 => Sys2Proof.Machine.execSlhl r1 x2 i2 s
  | .sll r1 x2 i2 => Sys2Proof.Machine.execSll r1 x2 i2 s
  | .slql r1 x2 i2 => Sys2Proof.Machine.execSlql r1 x2 i2 s
  | .srls r1 n => Sys2Proof.Machine.execSrls r1 n s
  | .srhl r1 x2 i2 => Sys2Proof.Machine.execSrhl r1 x2 i2 s
  | .srl r1 x2 i2 => Sys2Proof.Machine.execSrl r1 x2 i2 s
  | .srql r1 x2 i2 => Sys2Proof.Machine.execSrql r1 x2 i2 s
  | .rll r1 x2 i2 => Sys2Proof.Machine.execRll r1 x2 i2 s
  | .rrl r1 x2 i2 => Sys2Proof.Machine.execRrl r1 x2 i2 s
  | .slha r1 x2 i2 => Sys2Proof.Machine.execSlha r1 x2 i2 s
  | .sla r1 x2 i2 => Sys2Proof.Machine.execSla r1 x2 i2 s
  | .slqa r1 x2 i2 => Sys2Proof.Machine.execSlqa r1 x2 i2 s
  | .srha r1 x2 i2 => Sys2Proof.Machine.execSrha r1 x2 i2 s
  | .sra r1 x2 i2 => Sys2Proof.Machine.execSra r1 x2 i2 s
  | .srqa r1 x2 i2 => Sys2Proof.Machine.execSrqa r1 x2 i2 s
  | .btbs m1 n => Sys2Proof.Machine.execBtbs m1 n s
  | .btfs m1 n => Sys2Proof.Machine.execBtfs m1 n s
  | .btcr m1 r2 => Sys2Proof.Machine.execBtcr m1 r2 s
  | .btc m1 x2 a2 => Sys2Proof.Machine.execBtc m1 x2 a2 s
  | .bfbs m1 n => Sys2Proof.Machine.execBfbs m1 n s
  | .bffs m1 n => Sys2Proof.Machine.execBffs m1 n s
  | .bfcr m1 r2 => Sys2Proof.Machine.execBfcr m1 r2 s
  | .bfc m1 x2 a2 => Sys2Proof.Machine.execBfc m1 x2 a2 s
  | .bxh r1 x2 i2 => Sys2Proof.Machine.execBxh r1 x2 i2 s
  | .bxle r1 x2 i2 => Sys2Proof.Machine.execBxle r1 x2 i2 s
  | .balr r1 r2 => Sys2Proof.Machine.execBalr r1 r2 s
  | .bal r1 x2 a2 => Sys2Proof.Machine.execBal r1 x2 a2 s
  | .ler r1 r2 => Sys2Proof.Machine.execLer r1 r2 s
  | .le r1 x2 a2 => Sys2Proof.Machine.execLe r1 x2 a2 s
  | .ste r1 x2 a2 => Sys2Proof.Machine.execSte r1 x2 a2 s
  | .aer r1 r2 => Sys2Proof.Machine.execAer r1 r2 s
  | .ae r1 x2 a2 => Sys2Proof.Machine.execAe r1 x2 a2 s
  | .ser r1 r2 => Sys2Proof.Machine.execSer r1 r2 s
  | .se r1 x2 a2 => Sys2Proof.Machine.execSe r1 x2 a2 s
  | .cer r1 r2 => Sys2Proof.Machine.execCer r1 r2 s
  | .ce r1 x2 a2 => Sys2Proof.Machine.execCe r1 x2 a2 s
  | .mer r1 r2 => Sys2Proof.Machine.execMer r1 r2 s
  | .me r1 x2 a2 => Sys2Proof.Machine.execMe r1 x2 a2 s
  | .der r1 r2 => Sys2Proof.Machine.execDer r1 r2 s
  | .de r1 x2 a2 => Sys2Proof.Machine.execDe r1 x2 a2 s
  | .lpsw r1 x2 i2 => Sys2Proof.Machine.execLpsw r1 x2 i2 s
  | .epor r1 r2 => Sys2Proof.Machine.execEpor r1 r2 s
  | .eppr r1 r2 => Sys2Proof.Machine.execEppr r1 r2 s
  | .epsr r1 r2 => Sys2Proof.Machine.execEpsr r1 r2 s
  | .sint r1 x2 i2 => Sys2Proof.Machine.execSint r1 x2 i2 s
  | .svc r1 x2 i2 => Sys2Proof.Machine.execSvc r1 x2 i2 s
  | .air r1 r2 => Sys2Proof.Machine.execAir r1 r2 s
  | .ai r1 x2 a2 => Sys2Proof.Machine.execAi r1 x2 a2 s
  | .ssr r1 r2 => Sys2Proof.Machine.execSsr r1 r2 s
  | .ss r1 x2 a2 => Sys2Proof.Machine.execSs r1 x2 a2 s
  | .ocr r1 r2 => Sys2Proof.Machine.execOcr r1 r2 s
  | .oc r1 x2 a2 => Sys2Proof.Machine.execOc r1 x2 a2 s
  | .rdr r1 r2 => Sys2Proof.Machine.execRdr r1 r2 s
  | .rd r1 x2 a2 => Sys2Proof.Machine.execRd r1 x2 a2 s
  | .wdr r1 r2 => Sys2Proof.Machine.execWdr r1 r2 s
  | .wd r1 x2 a2 => Sys2Proof.Machine.execWd r1 x2 a2 s
  | .al r1 x2 a2 => Sys2Proof.Machine.execAl r1 x2 a2 s
  | .rhr r1 r2 => Sys2Proof.Machine.execRhr r1 r2 s
  | .rh r1 x2 a2 => Sys2Proof.Machine.execRh r1 x2 a2 s
  | .whr r1 r2 => Sys2Proof.Machine.execWhr r1 r2 s
  | .wh r1 x2 a2 => Sys2Proof.Machine.execWh r1 x2 a2 s
  | .rbr r1 r2 => Sys2Proof.Machine.execRbr r1 r2 s
  | .rb r1 x2 a2 => Sys2Proof.Machine.execRb r1 x2 a2 s
  | .wbr r1 r2 => Sys2Proof.Machine.execWbr r1 r2 s
  | .wb r1 x2 a2 => Sys2Proof.Machine.execWb r1 x2 a2 s
  | .atl r1 x2 a2 => Sys2Proof.Machine.execAtl r1 x2 a2 s
  | .abl r1 x2 a2 => Sys2Proof.Machine.execAbl r1 x2 a2 s
  | .rtl r1 x2 a2 => Sys2Proof.Machine.execRtl r1 x2 a2 s
  | .rbl r1 x2 a2 => Sys2Proof.Machine.execRbl r1 x2 a2 s
  | .ecpr r1 r2 => Sys2Proof.Machine.execEcpr r1 r2 s
  | .cosr r1 r2 => Sys2Proof.Machine.execCosr r1 r2 s
  | .cos r1 x2 a2 => Sys2Proof.Machine.execCos r1 x2 a2 s
  | .asnr r1 r2 => Sys2Proof.Machine.execAsnr r1 r2 s
  | .asn r1 x2 a2 => Sys2Proof.Machine.execAsn r1 x2 a2 s
  | .atnr r1 r2 => Sys2Proof.Machine.execAtnr r1 r2 s
  | .atn r1 x2 a2 => Sys2Proof.Machine.execAtn r1 x2 a2 s
  | .sqdr r1 r2 => Sys2Proof.Machine.execSqdr r1 r2 s
  | .sqd r1 x2 a2 => Sys2Proof.Machine.execSqd r1 x2 a2 s
  | .sesb r1 x2 i2 => Sys2Proof.Machine.execSesb r1 x2 i2 s
  | .resb r1 x2 i2 => Sys2Proof.Machine.execResb r1 x2 i2 s
  | .lchr r1 r2 => Sys2Proof.Machine.execLchr r1 r2 s
  | .lch r1 x2 a2 => Sys2Proof.Machine.execLch r1 x2 a2 s
  | .lcnhr r1 r2 => Sys2Proof.Machine.execLcnhr r1 r2 s
  | .lcnh r1 x2 a2 => Sys2Proof.Machine.execLcnh r1 x2 a2 s
  | .lavr r1 r2 => Sys2Proof.Machine.execLavr r1 r2 s
  | .lav r1 x2 a2 => Sys2Proof.Machine.execLav r1 x2 a2 s
  | .lfr r1 r2 => Sys2Proof.Machine.execLfr r1 r2 s
  | .lf r1 x2 a2 => Sys2Proof.Machine.execLf r1 x2 a2 s
  | .stf r1 x2 a2 => Sys2Proof.Machine.execStf r1 x2 a2 s
  | .afr r1 r2 => Sys2Proof.Machine.execAfr r1 r2 s
  | .af r1 x2 a2 => Sys2Proof.Machine.execAf r1 x2 a2 s
  | .sfr r1 r2 => Sys2Proof.Machine.execSfr r1 r2 s
  | .sf r1 x2 a2 => Sys2Proof.Machine.execSf r1 x2 a2 s
  | .cfr r1 r2 => Sys2Proof.Machine.execCfr r1 r2 s
  | .cf r1 x2 a2 => Sys2Proof.Machine.execCf r1 x2 a2 s
  | .mfr r1 r2 => Sys2Proof.Machine.execMfr r1 r2 s
  | .mf r1 x2 a2 => Sys2Proof.Machine.execMf r1 x2 a2 s
  | .dfr r1 r2 => Sys2Proof.Machine.execDfr r1 r2 s
  | .df r1 x2 a2 => Sys2Proof.Machine.execDf r1 x2 a2 s

end Sys2Proof.Machine
end

