-- ==== Sys2Proof/Machine/Events.lean ====
section
/-! DEFINITION. The host events of 60_exceptions.md R459: devices, parity, power, channel termination, DMA and the
clocks. They occur at the boundary before a step (log 42). -/

namespace Sys2Proof.Machine

/-- A controller raises its request: chain order is kept, a controller holds one request (60_exceptions.md R474). -/
def insertRequest (r : Request) : List Request → List Request
  | [] => [r]
  | q :: rest =>
    if r.chain < q.chain then r :: q :: rest
    else if r.chain = q.chain then r :: rest
    else q :: insertRequest r rest

/-- A controller drops its request (60_exceptions.md R459). -/
def withdrawRequest (chain : Nat) : List Request → List Request
  | [] => []
  | q :: rest => if q.chain = chain then withdrawRequest chain rest else q :: withdrawRequest chain rest

/-- The Register Save Pointer (10_state.md R36). -/
def State.savePointer (s : State) : Word := s.halfAt 0 0x0022

/-- PowerDown (60_exceptions.md R485): the registers to the save area, register 0 first, then the PSW to 24 to 27; the
processor stops. Nothing happens in a processor that is not running (log 36). -/
def State.saveForPowerDown (s : State) : Out :=
  if s.power = .running then
    s.guardHalves 0 16 s.savePointer
      (.next { ((storeMany 0 16 0 s.savePointer s).setHalf 0 0x0024 s.psw.status).setHalf 0 0x0026 s.psw.lc with
               power := .powerDown })
  else .next s

/-- Memory is lost: its contents are arbitrary (60_exceptions.md R481). -/
def State.loseMemory (s : State) : State := { s.drawn with mem := s.freeMemory }

/-- INIT_STATE, the state at the first instruction after Start-up, with or without program load (70_reset_and_hazards.md
R531): registers, PSW, CPR and memory are free values, and no interrupt condition is signalled. The environment's
scripts and clocks go on (log 36, log 43). -/
def State.initialised (s : State) : State :=
  { s.loseMemory with
    regs := Vector.ofFn fun r => (s.freeFull (16 + r.val)).setWidth 16
    psw := Psw.reset.withStatus ((s.freeFull 1).setWidth 16) |>.withLc ((s.freeFull 2).setWidth 16)
    cpr := cprValue ((s.freeFull 3).setWidth 16)
    apfPending := false, parityInstr := false, parityOperand := false
    power := .running, memOperational := true }

/-- The registers and the PSW from the save area, the CPR free, no power failure pending (60_exceptions.md R487). A
parity error signalled before the restart stays signalled: DESIGN CHOICE (log 41). -/
def State.restored (s : State) : State :=
  let t := ((loadMany 0 16 0 s.savePointer s).setStatus (s.halfAt 0 0x0024)).setLc (s.halfAt 0 0x0026)
  { t.drawn with cpr := cprValue ((s.freeFull 1).setWidth 16), apfPending := false, power := .running }

/-- Restart (60_exceptions.md R487): the restored state, and the Machine Malfunction exchange where its bit 2 is set. -/
def State.performRestart (s : State) : Out :=
  s.guardHalves 0 16 s.savePointer
    (.next (if s.restored.psw.mmEn then s.restored.raiseMalfunction else s.restored))

/-- PowerRestore (60_exceptions.md R487): Restart with memory valid, else Start-up. The Memory Operational Indicator
says which; memory is not valid after Power-Off (R481). -/
def State.restorePower (s : State) (valid : Bool) : State :=
  let ok := valid && !decide (s.power = .powerOff)
  { s with memOperational := ok, power := if ok then .restart else .startUp }

/-- The program load signal (60_exceptions.md R482). The loading is performed by the processor, so a processor without
power does not answer (log 36). -/
def State.startLoading (s : State) : State :=
  if s.power = .running ∨ s.power = .startUp then { s with power := .programLoad } else s

/-- ChannelTerminate (60_exceptions.md R473): into a full queue the overflow procedure, else the pointer joins the
list as ATL or ABL would add it. The Condition Code is no part of that: it is left unchanged (log 51). The channel is
processor microcode: nothing happens in a processor that is not running (log 36). -/
def State.terminateChannel (s : State) (pointer : Word) (queueEnd : QueueEnd) : Out :=
  if s.power = .running then
    s.readHalf 0 s.params.qptrLoc fun q => s.readByte 0 (q + 1) fun used => s.readByte 0 q fun slots =>
      if used = slots then .next (s.setHalf 0 0x008A pointer).raiseOverflow
      else
        match queueEnd with
        | .top => s.guardHeader 0 q (q + 2) (s.addTop 0 q pointer)
        | .bottom => s.guardHeader 0 q (q + 3) (s.addBottom 0 q pointer)
  else .next s

/-- The milliseconds after which the Real-Time clock resets: 200 days (10_state.md R41). -/
def rtcPeriod : Nat := 17280000000

/-- One millisecond: the Real-Time clock up, the Elapsed Time clock down (60_exceptions.md R489). No ETC interrupt
class exists (R478, log 29). -/
def State.tick (s : State) : State := { s with rtc := (s.rtc + 1) % rtcPeriod, etc := s.etc - 1 }

/-- One host event (60_exceptions.md R459). -/
def State.deliver (s : State) : HostEvent → Out
  | .request r => .next { s with requests := insertRequest r s.requests }
  | .dropRequest chain => .next { s with requests := withdrawRequest chain s.requests }
  | .reply r => .next { s with replies := s.replies ++ [r] }
  | .parityInstr => .next { s with parityInstr := true }
  | .parityOperand => .next { s with parityOperand := true }
  | .advancePowerFailure => .next { s with apfPending := true }
  | .powerDown => s.saveForPowerDown
  | .standBy => .next { s with power := .standBy }
  | .powerOff => .next { s.loseMemory with power := .powerOff, memOperational := false }
  | .powerRestore valid => .next (s.restorePower valid)
  | .programLoad => .next s.startLoading
  | .channelTerminate pointer queueEnd => s.terminateChannel pointer queueEnd
  | .dmaWrite bank addr value => s.writeByte bank addr value
  | .tick => .next s.tick

/-- The host events of one boundary, in their order. -/
def State.deliverAll (s : State) : List HostEvent → Out
  | [] => .next s
  | e :: rest => andThen (s.deliver e) fun t => t.deliverAll rest

end Sys2Proof.Machine
end

