-- ==== Sys2Proof/Machine/Interrupts.lean ====
section
/-! DEFINITION. The step of the machine (60_exceptions.md R452): host events, the asynchronous interrupts, the wait
state, and the fetch of an instruction (20_memory.md R70, 30_encoding.md R109). -/

namespace Sys2Proof.Machine

/-- An asynchronous interrupt condition (60_exceptions.md R452 step 1). -/
inductive Condition where
  /-- Machine Malfunction: parity error on an instruction read (R460). -/
  | parityInstr
  /-- Machine Malfunction: parity error on an operand read (R460). -/
  | parityOperand
  /-- Machine Malfunction: Advance Power Failure (R460). -/
  | powerFailure
  /-- External interrupt (R468). -/
  | external
  /-- Automatic I/O Service: the Immediate Interrupt (R469). -/
  | immediate
  /-- Channel Termination (R471). -/
  | channel
  deriving DecidableEq, Repr

/-- A condition, where it holds. -/
def Condition.given (c : Condition) (holds : Bool) : List Condition := if holds then [c] else []

/-- The conditions pending and enabled (60_exceptions.md R452 step 1). -/
def State.pending (s : State) : List Condition :=
  Condition.parityInstr.given (s.psw.mmEn && s.parityInstr) ++
  Condition.parityOperand.given (s.psw.mmEn && s.parityOperand) ++
  Condition.powerFailure.given (s.psw.mmEn && s.apfPending) ++
  Condition.external.given (s.psw.extEn && !s.psw.aioEn && s.attention) ++
  Condition.immediate.given (s.psw.extEn && s.psw.aioEn && s.attention) ++
  Condition.channel.given (s.psw.ctEn && s.queueNonEmpty)

/-- Parity errors signalled while bit 2 is reset are not queued in a running processor (60_exceptions.md R460, log 41).
-/
def State.dropMasked (s : State) : State :=
  if s.psw.mmEn then s else { s with parityInstr := false, parityOperand := false }

/-- The Immediate Interrupt (60_exceptions.md R469): the acknowledge clears the request, its status is discarded, and
the Service Pointer of the device is followed. -/
def State.takeImmediate (s : State) : Out :=
  match s.requests with
  | [] => .next s
  | r :: _ => s.acknowledged.serviceAction r.device s.psw.lc

/-- The procedure of a condition (60_exceptions.md R460, R468, R469, R471). The three causes of Machine Malfunction set
a flag each after the exchange. -/
def State.takeInterrupt (s : State) : Condition → Out
  | .parityInstr =>
    let t := { s with parityInstr := false }.raiseMalfunction
    .next (t.setCc { t.psw.cc with g := true })
  | .parityOperand =>
    let t := { s with parityOperand := false }.raiseMalfunction
    .next (t.setCc { t.psw.cc with v := true })
  | .powerFailure =>
    let t := { s with apfPending := false }.raiseMalfunction
    .next (t.setCc { t.psw.cc with l := true })
  | .external => .next s.raiseExternal
  | .immediate => s.takeImmediate
  | .channel => .next s.raiseChannel

/-- Whether the instruction with this first halfword has a second one that is fetched: formats RX and RI, but no
no-operation (30_encoding.md R109, R114). -/
def secondFetched (w1 : Word) : Bool := longCode (opField w1) && !noOpCode (opField w1)

/-- Fetch and decode at PBANK:LC, then run (30_encoding.md R109): an unassigned operation code raises Illegal
Instruction; the second halfword is fetched for the formats RX and RI, but not for a no-operation. -/
def State.fetch (s : State) (run : Instr → State → Out) : Out :=
  let w1 := s.halfAt s.psw.pbank s.psw.lc
  let w2 := s.halfAt s.psw.pbank (s.psw.lc + 2)
  require (evenAddr s.psw.lc) .oddFetch
    (require (s.halfPresent s.psw.pbank s.psw.lc) .absentMemory
      (match decode s.params w1 w2 with
       | .error (.illegalOpcode _) => .next s.raiseIllegal
       | .error (.lostOpcode op) => .refused (.lostOpcode op)
       | .ok i => require (!secondFetched w1 || s.halfPresent s.psw.pbank (s.psw.lc + 2)) .absentMemory (run i s)))

/-- The boundary between two instructions and what follows it (60_exceptions.md R452): one pending condition, chosen
freely among several (R475, log 14), else the wait state, else an instruction. -/
def State.boundary (s : State) (run : Instr → State → Out) : Out :=
  s.guardQueue
    (match s.pending with
     | [] => if s.psw.wait then .next s else s.fetch run
     | [c] => s.takeInterrupt c
     | c :: rest =>
       s.drawn.takeInterrupt ((c :: rest).getD ((s.freeFull 1).toNat % (rest.length + 1)) c))

/-- What the processor does in a mode (60_exceptions.md R480 to R487, log 36): a running one the boundary, one in
Start-up or Program load its sequence, one in Restart the restart, any other nothing. Start-up waits for the Memory
Operational Indicator to be reset (R482). A parity error signalled while the processor does not run is held and not
dropped: DESIGN CHOICE (log 41). -/
def State.act (s : State) (run : Instr → State → Out) : Out :=
  match s.power with
  | .running => s.dropMasked.boundary run
  | .startUp => .next (if s.memOperational then s else s.initialised)
  | .programLoad => .next s.initialised
  | .restart => s.performRestart
  | .powerDown | .standBy | .powerOff => .next s

/-- One step (60_exceptions.md R452): the host events of this boundary, then what the processor does in its mode. Events
that change the mode take the step (log 36). -/
def cycle (run : Instr → State → Out) (s : State) : Out :=
  andThen ({ s with arrivals := s.arrivals.tail }.deliverAll (s.arrivals.headD [])) fun t =>
    if t.power = s.power then t.act run else .next t

/-- Two halfwords placed where the next instruction is fetched. -/
def State.placeHalves (s : State) (w1 w2 : Word) : State :=
  (s.setHalf s.psw.pbank s.psw.lc w1).setHalf s.psw.pbank (s.psw.lc + 2) w2

end Sys2Proof.Machine
end

