-- ==== Sys2Proof/Machine/Step.lean ====
section
/-! DEFINITION. The step function, and the placing of an instruction where it is fetched. -/

namespace Sys2Proof.Machine

/-- One step of the machine (60_exceptions.md R452). -/
def step (s : State) : Host.Outcome State Fault Refusal := cycle exec s

/-- The state with an instruction, its bits `w` numbered as spec/opcode_table.json numbers them, where the next fetch
reads it (log 43). -/
def State.withFetchWord (s : State) (nbits w : Nat) : State :=
  s.placeHalves (tableHalves nbits w).1 (tableHalves nbits w).2

end Sys2Proof.Machine
end

