-- ==== Sys2Proof/Safety.lean ====
section
/-! DEFINITION. What claims about the machine are stated in: the invariant of the state, a run that does not stop, and
the terms in which a claim says what an instruction writes and what it leaves alone. -/

namespace Sys2Proof.Machine

/-! ### The invariant and runs -/

/-- The four values the CORDIC precision register can hold (10_state.md R34). -/
def legalCpr (w : Word) : Bool := w == 16 || w == 20 || w == 24 || w == 28

/-- Requests in rising chain order, one for each controller, from a least position on (60_exceptions.md R474). -/
def chainFrom : Nat → List Request → Bool
  | _, [] => true
  | lo, r :: rest => decide (lo ≤ r.chain) && chainFrom (r.chain + 1) rest

/-- The invariant of the machine: memory in canonical form, a legal CPR, the acknowledge chain in order, the
Real-Time clock within its period. -/
def State.Inv (s : State) : Prop :=
  Memory.wf s.mem = true ∧ legalCpr s.cpr = true ∧ chainFrom 0 s.requests = true ∧ s.rtc < rtcPeriod

/-- A run of `n` steps that meets neither a fault nor a refusal. -/
def runsOn (n : Nat) (s : State) : Prop := ∃ t, Sys2Proof.core.run n s = .next t

/-! ### Addresses -/

/-- A multiple of two: the addresses and register numbers the rules ask for. -/
def isEven {w : Nat} (v : BitVec w) : Prop := v.toNat % 2 = 0

/-- The byte at an address is memory (20_memory.md R61). -/
def State.byteOk (s : State) (b : Bank) (a : Word) : Prop := memPresent s.params b a = true

/-- A halfword may be read and written: its address is even, its bytes are memory (20_memory.md R61, R67). -/
def State.halfOk (s : State) (b : Bank) (a : Word) : Prop := isEven a ∧ s.byteOk b a ∧ s.byteOk b (a + 1)

/-- The header of the list at `a` may be accessed with the pointer at `p` (49_list_trig_augment.md R401). -/
def State.headerOk (s : State) (b : Bank) (a p : Word) : Prop :=
  isEven a ∧ s.byteOk b a ∧ s.byteOk b (a + 1) ∧ s.byteOk b p

/-- A fullword may be read and written (20_memory.md R61, R67). -/
def State.fullOk (s : State) (b : Bank) (a : Word) : Prop := s.halfOk b a ∧ s.halfOk b (a + 2)

/-- `n` halfwords from an address on may be read and written. -/
def State.halvesOk (s : State) (b : Bank) (n : Nat) (a : Word) : Prop := ∀ k < n, s.halfOk b (a + 2 * .ofNat 16 k)

/-- `n` bytes from an address on are memory. -/
def State.bytesOk (s : State) (b : Bank) (n : Nat) (a : Word) : Prop := ∀ k < n, s.byteOk b (a + .ofNat 16 k)

/-- The two reads of QueueNonEmpty may be made (60_exceptions.md R472). -/
def State.queueOk (s : State) : Prop := s.halfOk 0 s.params.qptrLoc ∧ s.byteOk 0 (s.halfAt 0 s.params.qptrLoc + 1)

/-! ### Frames -/

/-- No byte of memory. -/
def nowhere (_b : Bank) (_a : Word) : Prop := False

/-- The `n` bytes of bank `b` from address `a` on, modulo 65,536. -/
def span (b : Bank) (a : Word) (n : Nat) (b' : Bank) (a' : Word) : Prop := b' = b ∧ (a' - a).toNat < n

/-- Registers `r1` to 15. -/
def registersFrom (r1 : Nibble) : List Nibble :=
  ((List.range 16).map fun k => BitVec.ofNat 4 k).filter fun r => decide (r1.toNat ≤ r.toNat)

/-- From `s` to `t` nothing changes but the registers of a list, the bytes of a set, the PSW, and the model's own
count of draws. -/
structure State.Keeps (s t : State) (written : List Nibble) (stored : Bank → Word → Prop) : Prop where
  /-- Every other general register. -/
  regs : ∀ r, r ∉ written → t.reg r = s.reg r
  /-- Every other byte of memory. -/
  bytes : ∀ b a, ¬ stored b a → t.byteAt b a = s.byteAt b a
  /-- The CORDIC precision register. -/
  cpr : t.cpr = s.cpr
  /-- The Advance Power Failure condition. -/
  apfPending : t.apfPending = s.apfPending
  /-- The parity signals. -/
  parityInstr : t.parityInstr = s.parityInstr
  parityOperand : t.parityOperand = s.parityOperand
  /-- The mode and the Memory Operational Indicator. -/
  power : t.power = s.power
  memOperational : t.memOperational = s.memOperational
  /-- The clocks. -/
  rtc : t.rtc = s.rtc
  etc : t.etc = s.etc
  /-- The devices: their requests, their answers to come, the operations performed. -/
  requests : t.requests = s.requests
  replies : t.replies = s.replies
  bus : t.bus = s.bus
  /-- The host events to come. -/
  arrivals : t.arrivals = s.arrivals
  /-- The parameters of the machine. -/
  params : t.params = s.params

/-- Of the PSW only the Location Counter changes, to `lc`. -/
def State.lcOnly (s t : State) (lc : Word) : Prop := t.psw = { s.psw with lc := lc }

/-- Of the PSW only the Condition Code and the Location Counter change, the latter to `lc`. -/
def State.ccAndLc (s t : State) (lc : Word) : Prop := t.psw = { s.psw with cc := t.psw.cc, lc := lc }

/-- A halfword into a register and a Condition Code, then the next instruction; nothing else. -/
def State.putsHalf (s t : State) (len : Word) (r : Nibble) (v : Word) (flags : Cc → Prop) : Prop :=
  t.reg r = v ∧ flags t.psw.cc ∧ s.ccAndLc t (s.psw.lc + len) ∧ s.Keeps t [r] nowhere

/-- A fullword into two registers and a Condition Code, then the next instruction; nothing else. -/
def State.putsPair (s t : State) (len : Word) (r : Nibble) (v : Full) (flags : Cc → Prop) : Prop :=
  t.pair r = v ∧ flags t.psw.cc ∧ s.ccAndLc t (s.psw.lc + len) ∧ s.Keeps t [r, r + 1] nowhere

/-- A doubleword into four registers and a Condition Code, then the next instruction; nothing else. -/
def State.putsQuad (s t : State) (len : Word) (r : Nibble) (v : Quad) (flags : Cc → Prop) : Prop :=
  t.quad r = v ∧ flags t.psw.cc ∧ s.ccAndLc t (s.psw.lc + len) ∧ s.Keeps t [r, r + 1, r + 2, r + 3] nowhere

/-- A Condition Code, then the next instruction; nothing else. -/
def State.setsCc (s t : State) (len : Word) (flags : Cc → Prop) : Prop :=
  flags t.psw.cc ∧ s.ccAndLc t (s.psw.lc + len) ∧ s.Keeps t [] nowhere

/-- A halfword into memory, the Condition Code kept, then the next instruction; nothing else. -/
def State.storesHalf (s t : State) (b : Bank) (a v : Word) : Prop :=
  t.halfAt b a = v ∧ s.lcOnly t (s.psw.lc + 4) ∧ s.Keeps t [] (span b a 2)

/-- A fullword into memory, the Condition Code kept, then the next instruction; nothing else. -/
def State.storesFull (s t : State) (b : Bank) (a : Word) (v : Full) : Prop :=
  t.fullAt b a = v ∧ s.lcOnly t (s.psw.lc + 4) ∧ s.Keeps t [] (span b a 4)

/-- A PSW exchange (60_exceptions.md R455): `status` and `lc` are stored at `old`, the new PSW is the one at `new`;
nothing else. -/
def State.swapped (s t : State) (status lc old new : Word) : Prop :=
  t.halfAt 0 old = status ∧ t.halfAt 0 (old + 2) = lc ∧ t.psw.status = s.halfAt 0 new ∧
    t.psw.lc = s.halfAt 0 (new + 2) ∧ s.Keeps t [] (span 0 old 4)

/-! ### Condition Codes -/

/-- The Condition Code is kept. -/
def State.ccKept (s : State) (cc : Cc) : Prop := cc = s.psw.cc

/-- G and L report the sign of a value; C and V may be anything (40_load_store.md R140). -/
def signFlags {w : Nat} (v : BitVec w) (cc : Cc) : Prop := (cc.g = true ↔ 0 < v.toInt) ∧ (cc.l = true ↔ v.toInt < 0)

/-- An integer that a signed number of `w` bits cannot hold. -/
def tooWide (w : Nat) (x : Int) : Prop := x < -(2 ^ (w - 1)) ∨ 2 ^ (w - 1) - 1 < x

/-- C and V of an addition (41_arithmetic.md R170). -/
def carryFlags {w : Nat} (a b : BitVec w) (cin : Bool) (cc : Cc) : Prop :=
  (cc.c = true ↔ 2 ^ w ≤ a.toNat + b.toNat + cin.toNat) ∧
    (cc.v = true ↔ tooWide w (a.toInt + b.toInt + cin.toNat))

/-- C and V of a subtraction (41_arithmetic.md R171). -/
def borrowFlags {w : Nat} (a b : BitVec w) (bin : Bool) (cc : Cc) : Prop :=
  (cc.c = true ↔ a.toNat < b.toNat + bin.toNat) ∧ (cc.v = true ↔ tooWide w (a.toInt - b.toInt - bin.toNat))

/-- The Condition Code of an addition (41_arithmetic.md R170). -/
def sumFlags {w : Nat} (a b : BitVec w) (cc : Cc) : Prop := carryFlags a b false cc ∧ signFlags (a + b) cc

/-- The Condition Code of a subtraction (41_arithmetic.md R171). -/
def differenceFlags {w : Nat} (a b : BitVec w) (cc : Cc) : Prop := borrowFlags a b false cc ∧ signFlags (a - b) cc

/-- G and L of a halfword `r` of a multiple-precision result after the Condition Code `old` (41_arithmetic.md R178). -/
def chainFlags (old : Cc) (r : Word) (cc : Cc) : Prop :=
  (r ≠ 0 → signFlags r cc) ∧ (r = 0 → cc.l = false) ∧
    (r = 0 → old.g = false → old.l = false → cc.g = false)

/-- C the unsigned order; G and L both reset for equal operands, else one of them set (42_logical_compare.md R231). -/
def orderFlags {w : Nat} (a b : BitVec w) (cc : Cc) : Prop :=
  (cc.c = true ↔ a.toNat < b.toNat) ∧ (a = b → cc.g = false ∧ cc.l = false) ∧ (a ≠ b → cc.g = !cc.l)

/-- C, G and L the unsigned order (42_logical_compare.md R231). -/
def fullOrderFlags (a b : Full) (cc : Cc) : Prop :=
  (cc.c = true ↔ a.toNat < b.toNat) ∧ (cc.g = true ↔ b.toNat < a.toNat) ∧ (cc.l = true ↔ a.toNat < b.toNat)

/-- G and L the signed order, C that order where the unsigned order agrees (42_logical_compare.md R232). -/
def signedOrderFlags {w : Nat} (a b : BitVec w) (cc : Cc) : Prop :=
  (cc.g = true ↔ b.toInt < a.toInt) ∧ (cc.l = true ↔ a.toInt < b.toInt) ∧
    ((a.toInt < b.toInt ↔ a.toNat < b.toNat) → (cc.c = true ↔ a.toInt < b.toInt))

/-- V reset, G and L the sign of the result, C the last bit shifted out unless the count is zero
(44_shift_rotate.md R250, R252). -/
def shiftFlags {w : Nat} (r : BitVec w) (n : Nat) (last : Bool) (cc : Cc) : Prop :=
  cc.v = false ∧ signFlags r cc ∧ (n ≠ 0 → cc.c = last)

/-- V as given; C, G and L may be anything (48_io.md R368, 49_list_trig_augment.md R420). -/
def overflowFlag (v : Bool) (cc : Cc) : Prop := cc.v = v

/-- The Condition Code is bits 4:7 of a status byte (48_io.md R361). -/
def statusFlags (st : Byte) (cc : Cc) : Prop := cc.bits = st.extractLsb' 0 4

/-- The status byte of a time-out: bits 0:3 are zero and bit 5 is one (48_io.md R362). -/
def timeoutByte (st : Byte) : Prop := st.extractLsb' 4 4 = 0 ∧ st.getMsbD 5 = true

/-- The Condition Code of a floating-point result of value `x`: V reset, G and L its sign (46_floating_point.md
R318). -/
def floatFlags (x : Int) (cc : Cc) : Prop := cc.v = false ∧ (cc.g = true ↔ 0 < x) ∧ (cc.l = true ↔ x < 0)

/-- The Condition Code of exponent underflow: V set, G and L reset (46_floating_point.md R303). -/
def underflowFlags (cc : Cc) : Prop := cc.v = true ∧ cc.g = false ∧ cc.l = false

/-! ### Larger terms -/

/-- A quotient of `w` bits that every reading of the divide fault admits (41_arithmetic.md R200). -/
def quotientFits (w : Nat) (n d : Int) : Prop := d ≠ 0 ∧ -(2 ^ (w - 1)) < n.tdiv d ∧ n.tdiv d < 2 ^ (w - 1)

/-- A divide that the machine cannot do: a zero divisor or a quotient that a signed number of `w` bits cannot hold. -/
def divideOverflows (w : Nat) (n d : Int) : Prop := d = 0 ∨ tooWide w (n.tdiv d)

/-- The Fixed-Point Divide Fault where PSW bit 3 is set, else only the next instruction (41_arithmetic.md R200). -/
def State.divideFaults (s t : State) (len : Word) : Prop :=
  (s.psw.fdfEn = true → s.swapped t s.psw.status (s.psw.lc + len) 0x0048 0x004C) ∧
    (s.psw.fdfEn = false → s.lcOnly t (s.psw.lc + len) ∧ s.Keeps t [] nowhere)

/-- A floating-point word into floating-point register `r` and a Condition Code, then the next instruction; nothing
else. -/
def State.putsFloat (s t : State) (len : Word) (r : Nibble) (w : Full → Prop) (flags : Cc → Prop) : Prop :=
  w (t.fpReg r) ∧ flags t.psw.cc ∧ s.ccAndLc t (s.psw.lc + len) ∧ s.Keeps t [] (span 0 (2 * r.setWidth 16) 4)

/-- Exponent overflow or underflow (46_floating_point.md R303): the word `w` into floating-point register `r` and a
Condition Code; then, where PSW bit 5 is set, the exchange at 28 and 2C, which stores that Condition Code and the next
address, else the next instruction; nothing else. -/
def State.floatFaults (s t : State) (len : Word) (r : Nibble) (w : Full) (flags : Cc → Prop) : Prop :=
  ∃ u : State, u.fpReg r = w ∧ flags u.psw.cc ∧ u.psw = { s.psw with cc := u.psw.cc } ∧
    s.Keeps u [] (span 0 (2 * r.setWidth 16) 4) ∧
    (s.psw.fpfEn = true → u.swapped t u.psw.status (s.psw.lc + len) 0x0028 0x002C) ∧
    (s.psw.fpfEn = false → u.lcOnly t (s.psw.lc + len) ∧ u.Keeps t [] nowhere)

/-- A normalised word whose scaled value is `x`. -/
def wordOf (x : Int) (w : Full) : Prop := normalised w = true ∧ fpScaled w = x

/-- A scaled value above the greatest magnitude of a word. -/
def tooLarge (x : Int) : Prop := (2 ^ 24 - 1) * 16 ^ 127 < x.natAbs

/-- A scaled value that is not zero and below the least magnitude of a normalised word. -/
def tooSmall (x : Int) : Prop := x ≠ 0 ∧ x.natAbs < 2 ^ 20

/-- The devices of `t` put back as those of `s`: what is left to compare after an input/output instruction. -/
def State.withDevicesOf (t s : State) : State := { t with requests := s.requests, replies := s.replies, bus := s.bus }

/-- The termination queue of `s` is not empty (60_exceptions.md R472). -/
def State.queueWaits (s : State) : Prop := s.byteAt 0 (s.halfAt 0 s.params.qptrLoc + 1) ≠ 0

/-- A new status and Location Counter are loaded into `u`, a state whose memory is that of `s`, giving `t`; with bit 6
of the status set and the queue not empty the Channel Termination exchange follows (47_system_control.md R341, R344). -/
def State.loadsPsw (u t : State) (status lc : Word) : Prop :=
  (status.getMsbD 6 = true → u.queueWaits → u.swapped t status lc 0x0082 0x0086) ∧
    (¬(status.getMsbD 6 = true ∧ u.queueWaits) → t.psw.status = status ∧ t.psw.lc = lc ∧ u.Keeps t [] nowhere)

/-- An integer within `e` of another. -/
def within (e : Nat) (v x : Int) : Prop := (v - x).natAbs ≤ e

/-- An integer within `e` of the square root of `n`. -/
def nearRootOf (e n : Nat) (v : Int) : Prop := (v - e ≤ 0 ∨ (v - e) ^ 2 ≤ n) ∧ (n : Int) ≤ (v + e) ^ 2 ∧ 0 ≤ v + e

/-- The answers of a device to come. -/
def State.answers (s : State) (d : Byte) : List Reply := s.replies.filter fun r => r.device == d

/-- A byte transfer that went well: no time-out, and none of the status bits 4:7 (48_io.md R374, R380). -/
def goodTransfer (r : Reply) : Prop := r.timeout = false ∧ r.status &&& 0x0F = 0

/-- The Condition Code that the last transfer of a block leaves: zero after a good end, V set on a time-out, else the
status bits 4:7 (48_io.md R374, R380). -/
def blockFlags (last : Option Reply) (cc : Cc) : Prop :=
  match last with
  | none => cc = ⟨false, false, false, false⟩
  | some r => if r.timeout then cc.v = true else statusFlags r.status cc

/-- A block transfer ends in `t`: `count` operations went well and, where `last` is given, one more ended the block and
was performed unless it timed out; `op j` is the operation number `j` (48_io.md R380). -/
def State.blockEnds (s t : State) (count : Nat) (last : Option Reply) (op : Nat → BusOp) : Prop :=
  blockFlags last t.psw.cc ∧
    t.bus = ((List.range (count + if last.any fun r => !r.timeout then 1 else 0)).map op).reverse ++ s.bus

/-- The bytes from an address on hold the data of answers, in their order (48_io.md R374, R380). -/
def State.holdsData (t : State) (b : Bank) (a : Word) (answers : List Reply) : Prop :=
  ∀ j (h : j < answers.length), t.byteAt b (a + .ofNat 16 j) = answers[j].data.setWidth 8

/-- The state at a boundary whose list of host events is taken up (60_exceptions.md R459). -/
def State.begun (s : State) : State := { s with arrivals := s.arrivals.tail }

/-- An asynchronous class is pending and enabled (60_exceptions.md R452 step 1, R460): Machine Malfunction by cause
under PSW bit 2, External under bit 1 with bit 4 reset, the Immediate Interrupt with both set, Channel Termination under
bit 6. -/
def State.signals (s : State) : Condition → Prop
  | .parityInstr => s.psw.mmEn = true ∧ s.parityInstr = true
  | .parityOperand => s.psw.mmEn = true ∧ s.parityOperand = true
  | .powerFailure => s.psw.mmEn = true ∧ s.apfPending = true
  | .external => s.psw.extEn = true ∧ s.psw.aioEn = false ∧ s.requests ≠ []
  | .immediate => s.psw.extEn = true ∧ s.psw.aioEn = true ∧ s.requests ≠ []
  | .channel => s.psw.ctEn = true ∧ s.queueWaits

/-- One class is pending and enabled and no other is. -/
def State.onlySignals (s : State) (c : Condition) : Prop := ∀ c', s.signals c' ↔ c' = c

/-- No class is pending and enabled. -/
def State.quiet (s : State) : Prop := ∀ c, ¬ s.signals c

/-- No host event is due, the processor runs, no condition is pending, no parity signal is up, and the processor does
not wait; the first halfword at PBANK:LC can be fetched: the next step is an instruction. -/
structure State.Ready (s : State) : Prop where
  arrivals : s.arrivals.headD [] = []
  power : s.power = .running
  parityInstr : s.parityInstr = false
  parityOperand : s.parityOperand = false
  quiet : s.quiet
  wait : s.psw.wait = false
  queue : s.psw.ctEn = true → s.queueOk
  lc : s.halfOk s.psw.pbank s.psw.lc

end Sys2Proof.Machine
end

