-- ==== Sys2Proof/Certificates/Slice0/Obligations.lean ====
section
/-! DEFINITION. The statements for the provers. A result statement says that the instruction answers a next state and
what that state holds; what it leaves alone is `State.Keeps`. Memory in canonical form is a premise where a byte just
stored is read back; `StepKeepsInvariant` states that every step keeps it. The state holds the machine's parameters, so
each statement is about every fitting of memory and of the options: an operand's bytes being memory is a premise, and
`RefusedAccesses` says what happens where they are not. That address sums stay in their bank is the spec's decision
(log 44); statements about memory operands rest on it. -/

section Statements

open Sys2Proof Sys2Proof.Machine

/-! ### Load and store -/

/-- 40_load_store.md R140 to R149. -/
def Obligations.LoadHalfword : Prop := ∀ (s : State) (r1 : Nibble),
  (∀ n, ∃ t, exec (.lis r1 n) s = .next t ∧ s.putsHalf t 2 r1 (n.setWidth 16) (signFlags (n.setWidth 16))) ∧
  (∀ n, ∃ t, exec (.lcs r1 n) s = .next t ∧ s.putsHalf t 2 r1 (-n.setWidth 16) (signFlags (-n.setWidth 16))) ∧
  (∀ r2, ∃ t, exec (.lhr r1 r2) s = .next t ∧ s.putsHalf t 2 r1 (s.reg r2) (signFlags (s.reg r2))) ∧
  (∀ x2 i2, ∃ t, exec (.lhi r1 x2 i2) s = .next t ∧ s.putsHalf t 4 r1 (s.ea x2 i2) (signFlags (s.ea x2 i2))) ∧
  (∀ x2 a2, ∀ p ∈ [(Instr.lh r1 x2 a2, s.psw.obank), (.lh0 r1 x2 a2, 0), (.lh1 r1 x2 a2, 1),
      (.lh2 r1 x2 a2, 2), (.lh3 r1 x2 a2, 3)],
    s.halfOk p.2 (s.ea x2 a2) → ∃ t, exec p.1 s = .next t ∧
      s.putsHalf t 4 r1 (s.halfAt p.2 (s.ea x2 a2)) (signFlags (s.halfAt p.2 (s.ea x2 a2))))

/-- 40_load_store.md R151, R152, R159, 46_floating_point.md R307. The place of a floating-point register is log 15. -/
def Obligations.FullwordTransfers : Prop := ∀ (s : State) (r1 : Nibble), isEven r1 →
  (∀ r2, isEven r2 → ∃ t, exec (.ldpr r1 r2) s = .next t ∧ s.putsPair t 2 r1 (s.pair r2) (signFlags (s.pair r2))) ∧
  (∀ x2 a2, s.fullOk s.psw.obank (s.ea x2 a2) →
    (∃ t, exec (.ldp r1 x2 a2) s = .next t ∧
      s.putsPair t 4 r1 (s.fullAt s.psw.obank (s.ea x2 a2)) (signFlags (s.fullAt s.psw.obank (s.ea x2 a2)))) ∧
    (Memory.wf s.mem = true →
      (∃ t, exec (.stdp r1 x2 a2) s = .next t ∧ s.storesFull t s.psw.obank (s.ea x2 a2) (s.pair r1)) ∧
      (∃ t, exec (.ste r1 x2 a2) s = .next t ∧ s.storesFull t s.psw.obank (s.ea x2 a2) (s.fpReg r1))))

/-- 40_load_store.md R153 to R157. -/
def Obligations.StoreHalfword : Prop := ∀ (s : State) (r1 x2 : Nibble) (a2 : Word),
  Memory.wf s.mem = true →
  ∀ p ∈ [(Instr.sth r1 x2 a2, s.psw.obank), (.sth0 r1 x2 a2, 0), (.sth1 r1 x2 a2, 1), (.sth2 r1 x2 a2, 2),
      (.sth3 r1 x2 a2, 3)],
    s.halfOk p.2 (s.ea x2 a2) → ∃ t, exec p.1 s = .next t ∧ s.storesHalf t p.2 (s.ea x2 a2) (s.reg r1)

/-- 40_load_store.md R150, R158. -/
def Obligations.MultipleTransfer : Prop := ∀ (s : State) (r1 x2 : Nibble) (a2 : Word),
  Memory.wf s.mem = true → s.halvesOk s.psw.obank (16 - r1.toNat) (s.ea x2 a2) →
  let place (r : Nibble) : Word := s.ea x2 a2 + 2 * (r - r1).setWidth 16
  (∃ t, exec (.lm r1 x2 a2) s = .next t ∧
    (∀ r : Nibble, r1.toNat ≤ r.toNat → t.reg r = s.halfAt s.psw.obank (place r)) ∧
    s.lcOnly t (s.psw.lc + 4) ∧ s.Keeps t (registersFrom r1) nowhere) ∧
  (∃ t, exec (.stm r1 x2 a2) s = .next t ∧
    (∀ r : Nibble, r1.toNat ≤ r.toNat → t.halfAt s.psw.obank (place r) = s.reg r) ∧
    s.lcOnly t (s.psw.lc + 4) ∧ s.Keeps t [] (span s.psw.obank (s.ea x2 a2) (2 * (16 - r1.toNat))))

/-! ### Arithmetic -/

/-- 41_arithmetic.md R170, R172 to R176. G and L on overflow are those of the stored result: log 10. -/
def Obligations.AddHalfword : Prop := ∀ (s : State) (r1 : Nibble),
  (∀ n, ∃ t, exec (.ais r1 n) s = .next t ∧
    s.putsHalf t 2 r1 (s.reg r1 + n.setWidth 16) (sumFlags (s.reg r1) (n.setWidth 16))) ∧
  (∀ r2, ∃ t, exec (.ahr r1 r2) s = .next t ∧
    s.putsHalf t 2 r1 (s.reg r1 + s.reg r2) (sumFlags (s.reg r1) (s.reg r2))) ∧
  (∀ x2 i2, ∃ t, exec (.ahi r1 x2 i2) s = .next t ∧
    s.putsHalf t 4 r1 (s.reg r1 + s.ea x2 i2) (sumFlags (s.reg r1) (s.ea x2 i2))) ∧
  (∀ x2 a2, s.halfOk s.psw.obank (s.ea x2 a2) → let b := s.halfAt s.psw.obank (s.ea x2 a2)
    (∃ t, exec (.ah r1 x2 a2) s = .next t ∧ s.putsHalf t 4 r1 (s.reg r1 + b) (sumFlags (s.reg r1) b)) ∧
    (Memory.wf s.mem = true → ∃ t, exec (.ahm r1 x2 a2) s = .next t ∧
      t.halfAt s.psw.obank (s.ea x2 a2) = s.reg r1 + b ∧ sumFlags (s.reg r1) b t.psw.cc ∧
      s.ccAndLc t (s.psw.lc + 4) ∧ s.Keeps t [] (span s.psw.obank (s.ea x2 a2) 2)))

/-- 41_arithmetic.md R171, R181 to R184. G and L on overflow are those of the stored result: log 10. -/
def Obligations.SubtractHalfword : Prop := ∀ (s : State) (r1 : Nibble),
  (∀ n, ∃ t, exec (.sis r1 n) s = .next t ∧
    s.putsHalf t 2 r1 (s.reg r1 - n.setWidth 16) (differenceFlags (s.reg r1) (n.setWidth 16))) ∧
  (∀ r2, ∃ t, exec (.shr r1 r2) s = .next t ∧
    s.putsHalf t 2 r1 (s.reg r1 - s.reg r2) (differenceFlags (s.reg r1) (s.reg r2))) ∧
  (∀ x2 i2, ∃ t, exec (.shi r1 x2 i2) s = .next t ∧
    s.putsHalf t 4 r1 (s.reg r1 - s.ea x2 i2) (differenceFlags (s.reg r1) (s.ea x2 i2))) ∧
  (∀ x2 a2, s.halfOk s.psw.obank (s.ea x2 a2) → ∃ t, exec (.sh r1 x2 a2) s = .next t ∧
    s.putsHalf t 4 r1 (s.reg r1 - s.halfAt s.psw.obank (s.ea x2 a2))
      (differenceFlags (s.reg r1) (s.halfAt s.psw.obank (s.ea x2 a2))))

/-- 41_arithmetic.md R179, R180, R187, R188. G and L on overflow are those of the stored result: log 10. -/
def Obligations.AddSubtractFullword : Prop := ∀ (s : State) (r1 : Nibble), isEven r1 →
  (∀ r2, isEven r2 →
    (∃ t, exec (.adpr r1 r2) s = .next t ∧
      s.putsPair t 2 r1 (s.pair r1 + s.pair r2) (sumFlags (s.pair r1) (s.pair r2))) ∧
    (∃ t, exec (.sdpr r1 r2) s = .next t ∧
      s.putsPair t 2 r1 (s.pair r1 - s.pair r2) (differenceFlags (s.pair r1) (s.pair r2)))) ∧
  (∀ x2 a2, s.fullOk s.psw.obank (s.ea x2 a2) →
    (∃ t, exec (.adp r1 x2 a2) s = .next t ∧
      s.putsPair t 4 r1 (s.pair r1 + s.fullAt s.psw.obank (s.ea x2 a2))
        (sumFlags (s.pair r1) (s.fullAt s.psw.obank (s.ea x2 a2)))) ∧
    (∃ t, exec (.sdp r1 x2 a2) s = .next t ∧
      s.putsPair t 4 r1 (s.pair r1 - s.fullAt s.psw.obank (s.ea x2 a2))
        (differenceFlags (s.pair r1) (s.fullAt s.psw.obank (s.ea x2 a2)))))

/-- 41_arithmetic.md R177, R178, R185, R186. -/
def Obligations.CarryHalfword : Prop := ∀ (s : State) (r1 : Nibble),
  let cin : Bool := s.psw.cc.c
  let one : Word := if cin then 1 else 0
  (∀ r2,
    (∃ t, exec (.achr r1 r2) s = .next t ∧ s.putsHalf t 2 r1 (s.reg r1 + s.reg r2 + one) fun cc =>
      carryFlags (s.reg r1) (s.reg r2) cin cc ∧ chainFlags s.psw.cc (s.reg r1 + s.reg r2 + one) cc) ∧
    (∃ t, exec (.schr r1 r2) s = .next t ∧ s.putsHalf t 2 r1 (s.reg r1 - s.reg r2 - one) fun cc =>
      borrowFlags (s.reg r1) (s.reg r2) cin cc ∧ chainFlags s.psw.cc (s.reg r1 - s.reg r2 - one) cc)) ∧
  (∀ x2 a2, s.halfOk s.psw.obank (s.ea x2 a2) →
    let b := s.halfAt s.psw.obank (s.ea x2 a2)
    (∃ t, exec (.ach r1 x2 a2) s = .next t ∧ s.putsHalf t 4 r1 (s.reg r1 + b + one) fun cc =>
      carryFlags (s.reg r1) b cin cc ∧ chainFlags s.psw.cc (s.reg r1 + b + one) cc) ∧
    (∃ t, exec (.sch r1 x2 a2) s = .next t ∧ s.putsHalf t 4 r1 (s.reg r1 - b - one) fun cc =>
      borrowFlags (s.reg r1) b cin cc ∧ chainFlags s.psw.cc (s.reg r1 - b - one) cc))

/-- 41_arithmetic.md R199, R189 to R194. -/
def Obligations.Multiply : Prop := ∀ (s : State) (r1 : Nibble), isEven r1 →
  let m := s.reg (r1 + 1)
  (∀ r2,
    (∃ t, exec (.mhr r1 r2) s = .next t ∧
      s.putsPair t 2 r1 (.ofInt 32 (m.toInt * (s.reg r2).toInt)) s.ccKept) ∧
    (∃ t, exec (.mhur r1 r2) s = .next t ∧
      s.putsPair t 2 r1 (.ofNat 32 (m.toNat * (s.reg r2).toNat)) s.ccKept)) ∧
  (∀ x2 a2, s.halfOk s.psw.obank (s.ea x2 a2) →
    let b := s.halfAt s.psw.obank (s.ea x2 a2)
    (∃ t, exec (.mh r1 x2 a2) s = .next t ∧ s.putsPair t 4 r1 (.ofInt 32 (m.toInt * b.toInt)) s.ccKept) ∧
    (∃ t, exec (.mhu r1 x2 a2) s = .next t ∧ s.putsPair t 4 r1 (.ofNat 32 (m.toNat * b.toNat)) s.ccKept)) ∧
  (r1.toNat ≤ 12 →
    let p := s.pair (r1 + 2)
    (∀ r2, isEven r2 → ∃ t, exec (.mdpr r1 r2) s = .next t ∧
      s.putsQuad t 2 r1 (.ofInt 64 (p.toInt * (s.pair r2).toInt)) s.ccKept) ∧
    (∀ x2 a2, s.fullOk s.psw.obank (s.ea x2 a2) → ∃ t, exec (.mdp r1 x2 a2) s = .next t ∧
      s.putsQuad t 4 r1 (.ofInt 64 (p.toInt * (s.fullAt s.psw.obank (s.ea x2 a2)).toInt)) s.ccKept))

/-- 41_arithmetic.md R200, R195 to R198. -/
def Obligations.Divide : Prop := ∀ (s : State) (r1 : Nibble), isEven r1 →
  let n := (s.pair r1).toInt
  let half (d : Word) : Full := BitVec.ofInt 16 (n.tmod d.toInt) ++ BitVec.ofInt 16 (n.tdiv d.toInt)
  (∀ r2, quotientFits 16 n (s.reg r2).toInt →
    ∃ t, exec (.dhr r1 r2) s = .next t ∧ s.putsPair t 2 r1 (half (s.reg r2)) s.ccKept) ∧
  (∀ x2 a2, s.halfOk s.psw.obank (s.ea x2 a2) → quotientFits 16 n (s.halfAt s.psw.obank (s.ea x2 a2)).toInt →
    ∃ t, exec (.dh r1 x2 a2) s = .next t ∧
      s.putsPair t 4 r1 (half (s.halfAt s.psw.obank (s.ea x2 a2))) s.ccKept) ∧
  (r1.toNat ≤ 12 →
    let q := (s.quad r1).toInt
    let full (d : Full) : Quad := BitVec.ofInt 32 (q.tmod d.toInt) ++ BitVec.ofInt 32 (q.tdiv d.toInt)
    (∀ r2, isEven r2 → quotientFits 32 q (s.pair r2).toInt →
      ∃ t, exec (.ddpr r1 r2) s = .next t ∧ s.putsQuad t 2 r1 (full (s.pair r2)) s.ccKept) ∧
    (∀ x2 a2, s.fullOk s.psw.obank (s.ea x2 a2) → quotientFits 32 q (s.fullAt s.psw.obank (s.ea x2 a2)).toInt →
      ∃ t, exec (.ddp r1 x2 a2) s = .next t ∧
        s.putsQuad t 4 r1 (full (s.fullAt s.psw.obank (s.ea x2 a2))) s.ccKept))

/-- 41_arithmetic.md R200, 60_exceptions.md R462. The disabled fault is log 11. -/
def Obligations.DivideFault : Prop := ∀ (s : State) (r1 : Nibble), Memory.wf s.mem = true → isEven r1 →
  let n := (s.pair r1).toInt
  (∀ r2, divideOverflows 16 n (s.reg r2).toInt → ∃ t, exec (.dhr r1 r2) s = .next t ∧ s.divideFaults t 2) ∧
  (∀ x2 a2, s.halfOk s.psw.obank (s.ea x2 a2) → divideOverflows 16 n (s.halfAt s.psw.obank (s.ea x2 a2)).toInt →
    ∃ t, exec (.dh r1 x2 a2) s = .next t ∧ s.divideFaults t 4) ∧
  (r1.toNat ≤ 12 →
    let q := (s.quad r1).toInt
    (∀ r2, isEven r2 → divideOverflows 32 q (s.pair r2).toInt →
      ∃ t, exec (.ddpr r1 r2) s = .next t ∧ s.divideFaults t 2) ∧
    (∀ x2 a2, s.fullOk s.psw.obank (s.ea x2 a2) → divideOverflows 32 q (s.fullAt s.psw.obank (s.ea x2 a2)).toInt →
      ∃ t, exec (.ddp r1 x2 a2) s = .next t ∧ s.divideFaults t 4))

/-! ### Logical, compare, byte -/

/-- 42_logical_compare.md R210 to R220. The OR and the exclusive OR are those of the operation, against the printed
truth tables: log 46. G and L are those of R210, which marks them as derived from THI's chart. -/
def Obligations.LogicalHalfword : Prop := ∀ (s : State) (r1 : Nibble),
  let x := s.reg r1
  (∀ r2, let b := s.reg r2
    (∃ t, exec (.nhr r1 r2) s = .next t ∧ s.putsHalf t 2 r1 (x &&& b) (signFlags (x &&& b))) ∧
    (∃ t, exec (.ohr r1 r2) s = .next t ∧ s.putsHalf t 2 r1 (x ||| b) (signFlags (x ||| b))) ∧
    (∃ t, exec (.xhr r1 r2) s = .next t ∧ s.putsHalf t 2 r1 (x ^^^ b) (signFlags (x ^^^ b)))) ∧
  (∀ x2 i2, let b := s.ea x2 i2
    (∃ t, exec (.nhi r1 x2 i2) s = .next t ∧ s.putsHalf t 4 r1 (x &&& b) (signFlags (x &&& b))) ∧
    (∃ t, exec (.ohi r1 x2 i2) s = .next t ∧ s.putsHalf t 4 r1 (x ||| b) (signFlags (x ||| b))) ∧
    (∃ t, exec (.xhi r1 x2 i2) s = .next t ∧ s.putsHalf t 4 r1 (x ^^^ b) (signFlags (x ^^^ b))) ∧
    (∃ t, exec (.thi r1 x2 i2) s = .next t ∧ s.setsCc t 4 (signFlags (x &&& b)))) ∧
  (∀ x2 a2, s.halfOk s.psw.obank (s.ea x2 a2) → let b := s.halfAt s.psw.obank (s.ea x2 a2)
    (∃ t, exec (.nh r1 x2 a2) s = .next t ∧ s.putsHalf t 4 r1 (x &&& b) (signFlags (x &&& b))) ∧
    (∃ t, exec (.oh r1 x2 a2) s = .next t ∧ s.putsHalf t 4 r1 (x ||| b) (signFlags (x ||| b))) ∧
    (∃ t, exec (.xh r1 x2 a2) s = .next t ∧ s.putsHalf t 4 r1 (x ^^^ b) (signFlags (x ^^^ b))))

/-- 42_logical_compare.md R231, R221 to R225, 43_byte.md R246. -/
def Obligations.CompareLogical : Prop := ∀ (s : State) (r1 : Nibble),
  (∀ r2, ∃ t, exec (.clhr r1 r2) s = .next t ∧ s.setsCc t 2 (orderFlags (s.reg r1) (s.reg r2))) ∧
  (∀ x2 i2, ∃ t, exec (.clhi r1 x2 i2) s = .next t ∧ s.setsCc t 4 (orderFlags (s.reg r1) (s.ea x2 i2))) ∧
  (∀ x2 a2, s.halfOk s.psw.obank (s.ea x2 a2) → ∃ t, exec (.clh r1 x2 a2) s = .next t ∧
    s.setsCc t 4 (orderFlags (s.reg r1) (s.halfAt s.psw.obank (s.ea x2 a2)))) ∧
  (∀ x2 a2, s.byteOk s.psw.obank (s.ea x2 a2) → ∃ t, exec (.clb r1 x2 a2) s = .next t ∧
    s.setsCc t 4 (orderFlags ((s.reg r1).setWidth 8) (s.byteAt s.psw.obank (s.ea x2 a2)))) ∧
  (isEven r1 →
    (∀ r2, isEven r2 → ∃ t, exec (.cldpr r1 r2) s = .next t ∧
      s.setsCc t 2 (fullOrderFlags (s.pair r1) (s.pair r2))) ∧
    (∀ x2 a2, s.fullOk s.psw.obank (s.ea x2 a2) → ∃ t, exec (.cldp r1 x2 a2) s = .next t ∧
      s.setsCc t 4 (fullOrderFlags (s.pair r1) (s.fullAt s.psw.obank (s.ea x2 a2)))))

/-- 42_logical_compare.md R232, R226 to R230. -/
def Obligations.CompareAlgebraic : Prop := ∀ (s : State) (r1 : Nibble),
  (∀ r2, ∃ t, exec (.chr r1 r2) s = .next t ∧ s.setsCc t 2 (signedOrderFlags (s.reg r1) (s.reg r2))) ∧
  (∀ x2 i2, ∃ t, exec (.chi r1 x2 i2) s = .next t ∧ s.setsCc t 4 (signedOrderFlags (s.reg r1) (s.ea x2 i2))) ∧
  (∀ x2 a2, s.halfOk s.psw.obank (s.ea x2 a2) → ∃ t, exec (.ch r1 x2 a2) s = .next t ∧
    s.setsCc t 4 (signedOrderFlags (s.reg r1) (s.halfAt s.psw.obank (s.ea x2 a2)))) ∧
  (isEven r1 →
    (∀ r2, isEven r2 → ∃ t, exec (.cdpr r1 r2) s = .next t ∧
      s.setsCc t 2 (signedOrderFlags (s.pair r1) (s.pair r2))) ∧
    (∀ x2 a2, s.fullOk s.psw.obank (s.ea x2 a2) → ∃ t, exec (.cdp r1 x2 a2) s = .next t ∧
      s.setsCc t 4 (signedOrderFlags (s.pair r1) (s.fullAt s.psw.obank (s.ea x2 a2)))))

/-- 43_byte.md R240 to R245. -/
def Obligations.ByteHandling : Prop := ∀ (s : State) (r1 : Nibble), Memory.wf s.mem = true →
  let low (w : Word) : Byte := w.setWidth 8
  let high (w : Word) : Byte := (w >>> 8).setWidth 8
  (∀ r2,
    (∃ t, exec (.lbr r1 r2) s = .next t ∧ s.putsHalf t 2 r1 (s.reg r2 &&& 0x00FF) s.ccKept) ∧
    (∃ t, exec (.stbr r1 r2) s = .next t ∧ s.putsHalf t 2 r2 (high (s.reg r2) ++ low (s.reg r1)) s.ccKept) ∧
    (∃ t, exec (.exbr r1 r2) s = .next t ∧ s.putsHalf t 2 r1 (low (s.reg r2) ++ high (s.reg r2)) s.ccKept)) ∧
  (∀ x2 a2, s.byteOk s.psw.obank (s.ea x2 a2) →
    (∃ t, exec (.lb r1 x2 a2) s = .next t ∧
      s.putsHalf t 4 r1 ((s.byteAt s.psw.obank (s.ea x2 a2)).setWidth 16) s.ccKept) ∧
    (∃ t, exec (.stb r1 x2 a2) s = .next t ∧ t.byteAt s.psw.obank (s.ea x2 a2) = low (s.reg r1) ∧
      s.lcOnly t (s.psw.lc + 4) ∧ s.Keeps t [] (span s.psw.obank (s.ea x2 a2) 1)))

/-! ### Shift and rotate -/

/-- 44_shift_rotate.md R250 to R260. -/
def Obligations.ShiftLogical : Prop := ∀ (s : State) (r1 : Nibble),
  let left {w : Nat} (v : BitVec w) (n : Nat) : BitVec w := .ofNat w (v.toNat * 2 ^ n)
  let right {w : Nat} (v : BitVec w) (n : Nat) : BitVec w := .ofNat w (v.toNat / 2 ^ n)
  (∀ n : Nibble,
    (∃ t, exec (.slls r1 n) s = .next t ∧ s.putsHalf t 2 r1 (left (s.reg r1) n.toNat)
      (shiftFlags (left (s.reg r1) n.toNat) n.toNat ((s.reg r1).getMsbD (n.toNat - 1)))) ∧
    (∃ t, exec (.srls r1 n) s = .next t ∧ s.putsHalf t 2 r1 (right (s.reg r1) n.toNat)
      (shiftFlags (right (s.reg r1) n.toNat) n.toNat ((s.reg r1).getLsbD (n.toNat - 1))))) ∧
  (∀ x2 i2, let n := (s.ea x2 i2).toNat % 16
    (∃ t, exec (.slhl r1 x2 i2) s = .next t ∧ s.putsHalf t 4 r1 (left (s.reg r1) n)
      (shiftFlags (left (s.reg r1) n) n ((s.reg r1).getMsbD (n - 1)))) ∧
    (∃ t, exec (.srhl r1 x2 i2) s = .next t ∧ s.putsHalf t 4 r1 (right (s.reg r1) n)
      (shiftFlags (right (s.reg r1) n) n ((s.reg r1).getLsbD (n - 1))))) ∧
  (isEven r1 → ∀ x2 i2, let n := (s.ea x2 i2).toNat % 32
    (∃ t, exec (.sll r1 x2 i2) s = .next t ∧ s.putsPair t 4 r1 (left (s.pair r1) n)
      (shiftFlags (left (s.pair r1) n) n ((s.pair r1).getMsbD (n - 1)))) ∧
    (∃ t, exec (.srl r1 x2 i2) s = .next t ∧ s.putsPair t 4 r1 (right (s.pair r1) n)
      (shiftFlags (right (s.pair r1) n) n ((s.pair r1).getLsbD (n - 1))))) ∧
  (isEven r1 → r1.toNat ≤ 12 → ∀ x2 i2, let n := (s.ea x2 i2).toNat % 64
    (∃ t, exec (.slql r1 x2 i2) s = .next t ∧ s.putsQuad t 4 r1 (left (s.quad r1) n)
      (shiftFlags (left (s.quad r1) n) n ((s.quad r1).getMsbD (n - 1)))) ∧
    (∃ t, exec (.srql r1 x2 i2) s = .next t ∧ s.putsQuad t 4 r1 (right (s.quad r1) n)
      (shiftFlags (right (s.quad r1) n) n ((s.quad r1).getLsbD (n - 1)))))

/-- 44_shift_rotate.md R263 to R268: the sign bit stays; to the left the other bits shift out past it, to the right
the value is divided by 2^n, rounding down. -/
def Obligations.ShiftArithmetic : Prop := ∀ (s : State) (r1 : Nibble),
  let left {w : Nat} (v : BitVec w) (n : Nat) : BitVec w :=
    .ofNat w (v.toNat * 2 ^ n % 2 ^ (w - 1) + if v.msb then 2 ^ (w - 1) else 0)
  let right {w : Nat} (v : BitVec w) (n : Nat) : BitVec w := .ofInt w (v.toInt / 2 ^ n)
  (∀ x2 i2, let n := (s.ea x2 i2).toNat % 16
    (∃ t, exec (.slha r1 x2 i2) s = .next t ∧ s.putsHalf t 4 r1 (left (s.reg r1) n)
      (shiftFlags (left (s.reg r1) n) n ((s.reg r1).getMsbD n))) ∧
    (∃ t, exec (.srha r1 x2 i2) s = .next t ∧ s.putsHalf t 4 r1 (right (s.reg r1) n)
      (shiftFlags (right (s.reg r1) n) n ((s.reg r1).getLsbD (n - 1))))) ∧
  (isEven r1 → ∀ x2 i2, let n := (s.ea x2 i2).toNat % 32
    (∃ t, exec (.sla r1 x2 i2) s = .next t ∧ s.putsPair t 4 r1 (left (s.pair r1) n)
      (shiftFlags (left (s.pair r1) n) n ((s.pair r1).getMsbD n))) ∧
    (∃ t, exec (.sra r1 x2 i2) s = .next t ∧ s.putsPair t 4 r1 (right (s.pair r1) n)
      (shiftFlags (right (s.pair r1) n) n ((s.pair r1).getLsbD (n - 1))))) ∧
  (isEven r1 → r1.toNat ≤ 12 → ∀ x2 i2, let n := (s.ea x2 i2).toNat % 64
    (∃ t, exec (.slqa r1 x2 i2) s = .next t ∧ s.putsQuad t 4 r1 (left (s.quad r1) n)
      (shiftFlags (left (s.quad r1) n) n ((s.quad r1).getMsbD n))) ∧
    (∃ t, exec (.srqa r1 x2 i2) s = .next t ∧ s.putsQuad t 4 r1 (right (s.quad r1) n)
      (shiftFlags (right (s.quad r1) n) n ((s.quad r1).getLsbD (n - 1)))))

/-- 44_shift_rotate.md R261, R262: C and V are zero for every count. -/
def Obligations.Rotate : Prop := ∀ (s : State) (r1 x2 : Nibble) (i2 : Word), isEven r1 →
  let n := (s.ea x2 i2).toNat % 32
  let v := s.pair r1
  let flags (r : Full) (cc : Cc) : Prop := cc.c = false ∧ cc.v = false ∧ signFlags r cc
  (∃ t, exec (.rll r1 x2 i2) s = .next t ∧
    s.putsPair t 4 r1 (v <<< n ||| v >>> (32 - n)) (flags (v <<< n ||| v >>> (32 - n)))) ∧
  (∃ t, exec (.rrl r1 x2 i2) s = .next t ∧
    s.putsPair t 4 r1 (v >>> n ||| v <<< (32 - n)) (flags (v >>> n ||| v <<< (32 - n))))

/-! ### Branch -/

/-- 45_branch.md R280 to R289. -/
def Obligations.BranchOnCondition : Prop := ∀ (s : State) (m1 : Nibble),
  let met : Prop := s.psw.cc.bits &&& m1 ≠ 0
  let goes (i : Instr) (lc : Word) : Prop := ∃ t, exec i s = .next t ∧ s.lcOnly t lc ∧ s.Keeps t [] nowhere
  let pc := s.psw.lc
  (met →
    (∀ n, goes (.btbs m1 n) (pc - 2 * n.setWidth 16) ∧ goes (.btfs m1 n) (pc + 2 * n.setWidth 16) ∧
      goes (.bfbs m1 n) (pc + 2) ∧ goes (.bffs m1 n) (pc + 2)) ∧
    (∀ r2, goes (.btcr m1 r2) (s.reg r2) ∧ goes (.bfcr m1 r2) (pc + 2)) ∧
    (∀ x2 a2, goes (.btc m1 x2 a2) (s.ea x2 a2) ∧ goes (.bfc m1 x2 a2) (pc + 4))) ∧
  (¬ met →
    (∀ n, goes (.btbs m1 n) (pc + 2) ∧ goes (.btfs m1 n) (pc + 2) ∧
      goes (.bfbs m1 n) (pc - 2 * n.setWidth 16) ∧ goes (.bffs m1 n) (pc + 2 * n.setWidth 16)) ∧
    (∀ r2, goes (.btcr m1 r2) (pc + 2) ∧ goes (.bfcr m1 r2) (s.reg r2)) ∧
    (∀ x2 a2, goes (.btc m1 x2 a2) (pc + 4) ∧ goes (.bfc m1 x2 a2) (s.ea x2 a2)))

/-- 45_branch.md R290, R291, R295. Where index and limit have unlike signs the comparison is open (log 32): the two
instructions then only take opposite ways. -/
def Obligations.BranchOnIndex : Prop := ∀ (s : State) (r1 x2 : Nibble) (i2 : Word), r1.toNat ≤ 13 →
  let v := s.reg r1 + s.reg (r1 + 1)
  let lim := s.reg (r1 + 2)
  ∃ high : Bool, (v.msb = lim.msb → (high = true ↔ lim.toNat < v.toNat)) ∧
    (∃ t, exec (.bxh r1 x2 i2) s = .next t ∧ t.reg r1 = v ∧
      s.lcOnly t (if high then s.ea x2 i2 else s.psw.lc + 4) ∧ s.Keeps t [r1] nowhere) ∧
    (∃ t, exec (.bxle r1 x2 i2) s = .next t ∧ t.reg r1 = v ∧
      s.lcOnly t (if high then s.psw.lc + 4 else s.ea x2 i2) ∧ s.Keeps t [r1] nowhere)

/-- 45_branch.md R292, R293. -/
def Obligations.BranchAndLink : Prop := ∀ (s : State) (r1 : Nibble),
  (∀ r2, ∃ t, exec (.balr r1 r2) s = .next t ∧ t.reg r1 = s.psw.lc + 2 ∧ s.lcOnly t (s.reg r2) ∧
    s.Keeps t [r1] nowhere) ∧
  (∀ x2 a2, ∃ t, exec (.bal r1 x2 a2) s = .next t ∧ t.reg r1 = s.psw.lc + 4 ∧ s.lcOnly t (s.ea x2 a2) ∧
    s.Keeps t [r1] nowhere)

/-! ### Floating point -/

/-- 46_floating_point.md R302, R305, R306, R318: a word whose value is the true zero or no smaller than the smallest
normalised one is normalised, its value kept; a smaller one becomes the true zero with V set, and the fault follows
where PSW bit 5 is set. The layout of a word is log 15. -/
def Obligations.FloatLoad : Prop := ∀ (s : State) (r1 : Nibble), Memory.wf s.mem = true → isEven r1 →
  let loads (i : Instr) (len : Word) (w : Full) : Prop :=
    (¬ tooSmall (fpScaled w) → ∃ t, exec i s = .next t ∧
      s.putsFloat t len r1 (wordOf (fpScaled w)) (floatFlags (fpScaled w))) ∧
    (tooSmall (fpScaled w) → ∃ t, exec i s = .next t ∧
      s.floatFaults t len r1 0 underflowFlags)
  (∀ r2, isEven r2 → loads (.ler r1 r2) 2 (s.fpReg r2)) ∧
  (∀ x2 a2, s.fullOk s.psw.obank (s.ea x2 a2) → loads (.le r1 x2 a2) 4 (s.fullAt s.psw.obank (s.ea x2 a2)))

/-- 46_floating_point.md R303, R308 to R311. Where no digit is lost the sum and the difference are exact, or the
overflow or underflow of a value that has no word; where digits are lost the outcome is that of some result of the
relation of R308 (ii). The layout and the place of a register are log 15, the relation log 26, the flags at the fault
log 33. -/
def Obligations.FloatAddSubtract : Prop := ∀ (s : State) (r1 : Nibble), Memory.wf s.mem = true → isEven r1 →
  let a := s.fpReg r1
  let gives (i : Instr) (len : Word) (b : Full) : Prop :=
    let x := fpScaled a + fpScaled b
    let large (cc : Cc) : Prop := cc.v = true ∧ (cc.g = true ↔ 0 < x) ∧ (cc.l = true ↔ x < 0)
    let slack : Nat := 17 * 16 ^ max (fpExp a) (fpExp b)
    ∃ t, exec i s = .next t ∧
      (fpAddLoses a b = false →
        (¬ tooLarge x → ¬ tooSmall x → s.putsFloat t len r1 (wordOf x) (floatFlags x)) ∧
        (tooLarge x → s.floatFaults t len r1 (maxMag (decide (x < 0))) large) ∧
        (tooSmall x → s.floatFaults t len r1 0 underflowFlags)) ∧
      (fpAddLoses a b = true →
        (∃ r, normalised r = true ∧ (fpScaled r - x).natAbs < slack ∧ sameSide (fpScaled r) x = true ∧
          s.putsFloat t len r1 (· = r) (floatFlags (fpScaled r))) ∨
        (2 ^ 24 * 16 ^ 127 < x.natAbs + slack ∧ s.floatFaults t len r1 (maxMag (decide (x < 0))) large) ∨
        (x ≠ 0 ∧ x.natAbs < 2 ^ 20 + slack ∧ s.floatFaults t len r1 0 underflowFlags))
  let both (plus minus : Instr) (len : Word) (b : Full) : Prop :=
    normalised a = true → normalised b = true → gives plus len b ∧ gives minus len (fpNeg b)
  (∀ r2, isEven r2 → both (.aer r1 r2) (.ser r1 r2) 2 (s.fpReg r2)) ∧
  (∀ x2 a2, s.fullOk s.psw.obank (s.ea x2 a2) →
    both (.ae r1 x2 a2) (.se r1 x2 a2) 4 (s.fullAt s.psw.obank (s.ea x2 a2)))

/-- 46_floating_point.md R304, R312, R313. The layout and the place of a register are log 15. -/
def Obligations.FloatCompare : Prop := ∀ (s : State) (r1 : Nibble), isEven r1 →
  let a := s.fpReg r1
  let compares (i : Instr) (len : Word) (b : Full) : Prop :=
    (normalised a = true → normalised b = true → ∃ t, exec i s = .next t ∧ s.setsCc t len fun cc =>
      (cc.c = true ↔ fpScaled a < fpScaled b) ∧ (cc.g = true ↔ fpScaled b < fpScaled a) ∧
        (cc.l = true ↔ fpScaled a < fpScaled b)) ∧
    (normalised a = false ∨ normalised b = false → exec i s = .refused .notNormalised)
  (∀ r2, isEven r2 → compares (.cer r1 r2) 2 (s.fpReg r2)) ∧
  (∀ x2 a2, s.fullOk s.psw.obank (s.ea x2 a2) → compares (.ce r1 x2 a2) 4 (s.fullAt s.psw.obank (s.ea x2 a2)))

/-- 46_floating_point.md R303, R314, R315: the product is a normalised word less than one unit of its last place from
the exact product; it overflows where the exponent fields add up to more than 191, and underflows where the exact
product is below the least normalised magnitude; with a zero operand it is zero, or the underflow where the exponents
alone underflow (log 27). The layout and the place of a register are log 15, the rounding log 26. -/
def Obligations.FloatMultiply : Prop := ∀ (s : State) (r1 : Nibble), Memory.wf s.mem = true → isEven r1 →
  let a := s.fpReg r1
  let product (i : Instr) (len : Word) (b : Full) : Prop :=
    let x := fpScaled a * fpScaled b
    let near (r : Full) : Prop := normalised r = true ∧ (fpScaled r * 16 ^ 70 - x).natAbs < 16 ^ (fpExp r + 70)
    let underflows (t : State) : Prop := s.floatFaults t len r1 0 underflowFlags
    normalised a = true → normalised b = true → ∃ t, exec i s = .next t ∧
      (191 < fpExp a + fpExp b → s.floatFaults t len r1 (maxMag (fpSign a ^^ fpSign b)) (·.v = true)) ∧
      (x ≠ 0 → fpExp a + fpExp b ≤ 191 → 2 ^ 20 * 16 ^ 70 ≤ x.natAbs → s.putsFloat t len r1 near (floatFlags x)) ∧
      (x ≠ 0 → x.natAbs < 2 ^ 20 * 16 ^ 70 → underflows t) ∧
      (x = 0 → s.putsFloat t len r1 (· = 0) (floatFlags 0) ∨ (fpExp a + fpExp b < 64 ∧ underflows t))
  (∀ r2, isEven r2 → product (.mer r1 r2) 2 (s.fpReg r2)) ∧
  (∀ x2 a2, s.fullOk s.psw.obank (s.ea x2 a2) → product (.me r1 x2 a2) 4 (s.fullAt s.psw.obank (s.ea x2 a2)))

/-- 46_floating_point.md R303, R316, R317: the quotient is a normalised word less than one unit of its last place from
the exact quotient; it overflows, C reset and G or L set, where its exponent field would be above 127; it underflows, C
reset, where the exponent fields are more than 64 apart; a zero dividend gives zero, or the underflow where the
exponents alone underflow (log 27). The layout and the place of a register are log 15, the rounding log 26. -/
def Obligations.FloatDivide : Prop := ∀ (s : State) (r1 : Nibble), Memory.wf s.mem = true → isEven r1 →
  let a := s.fpReg r1
  let quotient (i : Instr) (len : Word) (b : Full) : Prop :=
    let x := fpScaled a * fpScaled b
    let near (r : Full) : Prop := normalised r = true ∧
      (fpScaled r * fpScaled b - fpScaled a * 16 ^ 70).natAbs < 16 ^ fpExp r * (fpScaled b).natAbs
    let large : Prop := fpExp b + 63 < fpExp a ∨ (fpExp a = fpExp b + 63 ∧ fpFrac b ≤ fpFrac a)
    let underflows (t : State) : Prop := s.floatFaults t len r1 0 fun cc => underflowFlags cc ∧ cc.c = false
    normalised a = true → normalised b = true → b ≠ 0 → ∃ t, exec i s = .next t ∧
      (large → s.floatFaults t len r1 (maxMag (fpSign a ^^ fpSign b)) fun cc =>
        cc.v = true ∧ cc.c = false ∧ (cc.g = true ∨ cc.l = true)) ∧
      (a ≠ 0 → ¬ large → fpExp b ≤ fpExp a + 64 → s.putsFloat t len r1 near (floatFlags x)) ∧
      (a ≠ 0 → fpExp a + 64 < fpExp b → underflows t) ∧
      (a = 0 → s.putsFloat t len r1 (· = 0) (floatFlags 0) ∨ (64 < fpExp b ∧ underflows t))
  (∀ r2, isEven r2 → quotient (.der r1 r2) 2 (s.fpReg r2)) ∧
  (∀ x2 a2, s.fullOk s.psw.obank (s.ea x2 a2) → quotient (.de r1 x2 a2) 4 (s.fullAt s.psw.obank (s.ea x2 a2)))

/-- 46_floating_point.md R303, R304: with PSW bit 5 reset every floating-point load completes, and so does every
floating-point arithmetic instruction with normalised operands, and each writes one floating-point register at most;
with an operand that is not normalised an arithmetic instruction is refused, whatever bit 5 is. The layout and the place
of a register are log 15. -/
def Obligations.FloatCompletes : Prop := ∀ (s : State) (r1 : Nibble), isEven r1 →
  let completes (i : Instr) (len : Word) : Prop := s.psw.fpfEn = false → ∃ t, exec i s = .next t ∧
    s.ccAndLc t (s.psw.lc + len) ∧ s.Keeps t [] (span 0 (2 * r1.setWidth 16) 4)
  let decides (i : Instr) (len : Word) (b : Full) : Prop :=
    (normalised (s.fpReg r1) = true → normalised b = true → completes i len) ∧
    (normalised (s.fpReg r1) = false ∨ normalised b = false → exec i s = .refused .notNormalised)
  (∀ r2, isEven r2 → completes (.ler r1 r2) 2 ∧
    ∀ i ∈ [Instr.aer r1 r2, .ser r1 r2, .mer r1 r2, .der r1 r2], decides i 2 (s.fpReg r2)) ∧
  (∀ x2 a2, s.fullOk s.psw.obank (s.ea x2 a2) → completes (.le r1 x2 a2) 4 ∧
    ∀ i ∈ [Instr.ae r1 x2 a2, .se r1 x2 a2, .me r1 x2 a2, .de r1 x2 a2],
      decides i 4 (s.fullAt s.psw.obank (s.ea x2 a2)))

/-- 46_floating_point.md R303, R316, 60_exceptions.md R464. The layout and the place of a register are log 15. -/
def Obligations.FloatDivideByZero : Prop := ∀ (s : State) (r1 : Nibble), Memory.wf s.mem = true → isEven r1 →
  let cc : Cc := ⟨true, true, false, false⟩
  let faults (i : Instr) (len : Word) : Prop := ∃ t, exec i s = .next t ∧
    (s.psw.fpfEn = true → s.swapped t { s.psw with cc := cc }.status (s.psw.lc + len) 0x0028 0x002C) ∧
    (s.psw.fpfEn = false → s.setsCc t len (· = cc))
  normalised (s.fpReg r1) = true →
    (∀ r2, isEven r2 → s.fpReg r2 = 0 → faults (.der r1 r2) 2) ∧
    (∀ x2 a2, s.fullOk s.psw.obank (s.ea x2 a2) → s.fullAt s.psw.obank (s.ea x2 a2) = 0 → faults (.de r1 x2 a2) 4)

/-! ### System control -/

/-- 47_system_control.md R341. That the queue lies in bank 0 is log 21, its Queue Pointer at the place the parameter of
log 17 gives, the examination inside the instruction log 40. -/
def Obligations.LoadPsw : Prop := ∀ (s : State) (x2 : Nibble) (a2 : Word),
  Memory.wf s.mem = true → s.psw.prot = false → s.fullOk s.psw.obank (s.ea x2 a2) →
  ((s.halfAt s.psw.obank (s.ea x2 a2)).getMsbD 6 = true → s.queueOk) →
  ∃ t, exec (.lpsw 0 x2 a2) s = .next t ∧
    s.loadsPsw t (s.halfAt s.psw.obank (s.ea x2 a2)) (s.halfAt s.psw.obank (s.ea x2 a2 + 2))

/-- 47_system_control.md R342 to R344. The Location Counter that EPPR stores is log 16, that EPSR examines the queue log
40, that it lies in bank 0 log 21, its Queue Pointer at the place the parameter of log 17 gives. -/
def Obligations.ExchangePsw : Prop := ∀ (s : State) (r1 r2 : Nibble), Memory.wf s.mem = true →
  (∃ t, exec (.epor r1 r2) s = .next t ∧ t.reg r1 = s.psw.status ∧
    t.psw = { s.psw with obank := (s.reg r1).extractLsb' 4 2, lc := s.psw.lc + 2 } ∧ s.Keeps t [r1] nowhere) ∧
  (r1.toNat ≤ 14 → ∃ t, exec (.eppr r1 r2) s = .next t ∧ t.reg r1 = s.psw.status ∧ t.reg (r1 + 1) = s.psw.lc + 2 ∧
    t.psw = { s.psw with pbank := (s.reg r1).extractLsb' 6 2, obank := (s.reg r1).extractLsb' 4 2,
                         lc := s.reg (r1 + 1) } ∧ s.Keeps t [r1, r1 + 1] nowhere) ∧
  (s.psw.prot = false →
    let w := if r2 = r1 then s.psw.status else s.reg r2
    (w.getMsbD 6 = true → s.queueOk) → ∃ t u, exec (.epsr r1 r2) s = .next t ∧ u.reg r1 = s.psw.status ∧
      u.psw = s.psw ∧ s.Keeps u [r1] nowhere ∧ u.loadsPsw t w (s.psw.lc + 2))

/-- 47_system_control.md R345, 60_exceptions.md R470. The Location Counter stored is log 16, that the block the Service
Pointer addresses lies in bank 0 log 21, the refusal log 20. -/
def Obligations.SimulateInterrupt : Prop := ∀ (s : State) (x2 : Nibble) (i2 : Word),
  Memory.wf s.mem = true → s.psw.prot = false →
  let sp := s.halfAt 0 (0x00D0 + 2 * (s.ea x2 i2 &&& 0x00FF))
  (s.halvesOk 0 3 sp → ∃ t, exec (.sint 0 x2 i2) s = .next t ∧ t.halfAt 0 sp = s.psw.status ∧
    t.halfAt 0 (sp + 2) = s.psw.lc + 4 ∧ t.psw.status = s.halfAt 0 (sp + 4) ∧ t.psw.lc = sp + 6 ∧
    s.Keeps t [] (span 0 sp 4)) ∧
  (¬ isEven sp → exec (.sint 0 x2 i2) s = .refused .channelService)

/-- 47_system_control.md R346. The Location Counter stored is log 16. -/
def Obligations.SupervisorCall : Prop := ∀ (s : State) (r1 x2 : Nibble) (i2 : Word), Memory.wf s.mem = true →
  ∃ t, exec (.svc r1 x2 i2) s = .next t ∧ t.halfAt 0 0x0094 = s.ea x2 i2 ∧ t.halfAt 0 0x0096 = s.psw.status ∧
    t.halfAt 0 0x0098 = s.psw.lc + 4 ∧ t.psw.status = s.halfAt 0 0x009A ∧
    t.psw.lc = s.halfAt 0 (0x009C + 2 * r1.setWidth 16) ∧ s.Keeps t [] (span 0 0x0094 6)

/-! ### Input and output -/

/-- 48_io.md R361, R364, R365. -/
def Obligations.AcknowledgeInterrupt : Prop := ∀ (s : State) (r1 : Nibble),
  Memory.wf s.mem = true → s.psw.prot = false →
  let answered (t : State) (st : Byte) : Prop := statusFlags st t.psw.cc ∧ t.requests = s.requests.tail ∧
    (∀ q rest, s.requests = q :: rest → st = q.status) ∧ (s.requests = [] → timeoutByte st)
  (∀ r2, ∃ t st, exec (.air r1 r2) s = .next t ∧ answered t st ∧ t.reg r2 = st.setWidth 16 ∧
    (∀ q rest, s.requests = q :: rest → r1 ≠ r2 → t.reg r1 = q.device.setWidth 16) ∧
    s.ccAndLc t (s.psw.lc + 2) ∧ s.Keeps { t with requests := s.requests } [r1, r2] nowhere) ∧
  (∀ x2 a2, s.byteOk s.psw.obank (s.ea x2 a2) → ∃ t st, exec (.ai r1 x2 a2) s = .next t ∧ answered t st ∧
    t.byteAt s.psw.obank (s.ea x2 a2) = st ∧
    (∀ q rest, s.requests = q :: rest → t.reg r1 = q.device.setWidth 16) ∧
    s.ccAndLc t (s.psw.lc + 4) ∧
    s.Keeps { t with requests := s.requests } [r1] (span s.psw.obank (s.ea x2 a2) 1))

/-- 48_io.md R361, R362, R366, R367. -/
def Obligations.SenseStatus : Prop := ∀ (s : State) (r1 : Nibble),
  Memory.wf s.mem = true → s.psw.prot = false →
  let d : Byte := (s.reg r1).setWidth 8
  let r := s.reply d
  let answered (t : State) (st : Byte) : Prop := statusFlags st t.psw.cc ∧ t.requests = s.requests ∧
    (r.timeout = false → st = r.status ∧ t.bus = .sense d :: s.bus) ∧
    (r.timeout = true → timeoutByte st ∧ t.bus = s.bus)
  (∀ r2, ∃ t st, exec (.ssr r1 r2) s = .next t ∧ answered t st ∧ t.reg r2 = st.setWidth 16 ∧
    s.ccAndLc t (s.psw.lc + 2) ∧ s.Keeps (t.withDevicesOf s) [r2] nowhere) ∧
  (∀ x2 a2, s.byteOk s.psw.obank (s.ea x2 a2) → ∃ t st, exec (.ss r1 x2 a2) s = .next t ∧ answered t st ∧
    t.byteAt s.psw.obank (s.ea x2 a2) = st ∧
    s.ccAndLc t (s.psw.lc + 4) ∧ s.Keeps (t.withDevicesOf s) [] (span s.psw.obank (s.ea x2 a2) 1))

/-- 48_io.md R362, R368 to R373, R376 to R379. What a read that times out leaves in its destination is a draw or what
was there, as the parameter of log 49 says: with it reset (93_implementation_defined.md U15) nothing is written, and RD
and RH then need no memory at the destination (log 49). -/
def Obligations.SingleTransfers : Prop := ∀ (s : State) (r1 : Nibble),
  Memory.wf s.mem = true → s.psw.prot = false →
  let d : Byte := (s.reg r1).setWidth 8
  let r := s.reply d
  let done (t : State) (len : Word) (op : BusOp) (v : Bool) : Prop := t.psw.cc.v = v ∧ t.requests = s.requests ∧
    t.bus = (if r.timeout then s.bus else op :: s.bus) ∧ s.ccAndLc t (s.psw.lc + len)
  let unwritten : Prop := r.timeout = true ∧ s.params.timeoutDraws = false
  let nothing (t : State) : Prop := unwritten → s.Keeps (t.withDevicesOf s) [] nowhere
  let sends (i : Instr) (len : Word) (op : BusOp) (v : Bool) : Prop := ∃ t, exec i s = .next t ∧ done t len op v ∧
    s.Keeps (t.withDevicesOf s) [] nowhere
  (∀ r2 : Nibble, let h := s.reg r2
    let takes (i : Instr) (op : BusOp) (v : Word) : Prop := ∃ t, exec i s = .next t ∧ done t 2 op r.timeout ∧
      (r.timeout = false → t.reg r2 = v) ∧ nothing t ∧ s.Keeps (t.withDevicesOf s) [r2] nowhere
    sends (.ocr r1 r2) 2 (.command d (h.setWidth 8)) (r.timeout || r.cannot) ∧
    sends (.wdr r1 r2) 2 (.writeByte d (h.setWidth 8)) r.timeout ∧
    sends (.whr r1 r2) 2 (.writeHalf d h) r.timeout ∧
    takes (.rdr r1 r2) (.readByte d) (r.data &&& 0x00FF) ∧ takes (.rhr r1 r2) (.readHalf d) r.data) ∧
  (∀ (x2 : Nibble) (a2 : Word), let b := s.psw.obank
    let a := s.ea x2 a2
    (s.byteOk b a →
      sends (.oc r1 x2 a2) 4 (.command d (s.byteAt b a)) (r.timeout || r.cannot) ∧
      sends (.wd r1 x2 a2) 4 (.writeByte d (s.byteAt b a)) r.timeout) ∧
    (s.byteOk b a ∨ unwritten → ∃ t, exec (.rd r1 x2 a2) s = .next t ∧ done t 4 (.readByte d) r.timeout ∧
      (r.timeout = false → t.byteAt b a = r.data.setWidth 8) ∧ nothing t ∧
      s.Keeps (t.withDevicesOf s) [] (span b a 1)) ∧
    (s.halfOk b a → sends (.wh r1 x2 a2) 4 (.writeHalf d (s.halfAt b a)) r.timeout) ∧
    (s.halfOk b a ∨ (isEven a ∧ unwritten) → ∃ t, exec (.rh r1 x2 a2) s = .next t ∧ done t 4 (.readHalf d) r.timeout ∧
      (r.timeout = false → t.halfAt b a = r.data) ∧ nothing t ∧ s.Keeps (t.withDevicesOf s) [] (span b a 2)))

/-- 48_io.md R374, R380 to R384. `done` are good answers and `rest` the answers after them: with as many as the block
has bytes it ends with the Condition Code 0000, and an answer that times out or shows one of the status bits 4:7 ends it
with that. Autoload sends its command first and reads past the leader, zero bytes that are not stored (log 22). Whatever
the answers, the transfer ends and stores only between its limits. The banks are log 21. -/
def Obligations.BlockTransfers : Prop := ∀ (s : State) (r1 : Nibble), Memory.wf s.mem = true → s.psw.prot = false →
  let d : Byte := (s.reg r1).setWidth 8
  let b := s.psw.obank
  let ends (i : Instr) (len start stop : Word) (reads : Bool) : Prop :=
    let n : Nat := stop.toNat + 1 - start.toNat
    let op (j : Nat) : BusOp := if reads then .readByte d else .writeByte d (s.byteAt b (start + .ofNat 16 j))
    let wrote (t : State) (done : List Reply) : Prop :=
      if reads then t.holdsData b start done ∧ s.Keeps (t.withDevicesOf s) [] (span b start done.length)
      else s.Keeps (t.withDevicesOf s) [] nowhere
    s.bytesOk b n start → ∃ t, exec i s = .next t ∧ t.requests = s.requests ∧ s.ccAndLc t (s.psw.lc + len) ∧
      s.Keeps (t.withDevicesOf s) [] (if reads then span b start n else nowhere) ∧
      (n = 0 → t.psw.cc = ⟨false, false, false, false⟩ ∧ s.Keeps t [] nowhere) ∧
      ∀ done rest, s.answers d = done ++ rest → (∀ r ∈ done, goodTransfer r) →
        (done.length = n → s.blockEnds t n none op ∧ wrote t done) ∧
        (∀ r, rest.head? = some r → ¬ goodTransfer r → done.length < n →
          s.blockEnds t done.length (some r) op ∧ wrote t done)
  (∀ r2 : Nibble, r2.toNat ≤ 14 →
    ends (.rbr r1 r2) 2 (s.reg r2) (s.reg (r2 + 1)) true ∧ ends (.wbr r1 r2) 2 (s.reg r2) (s.reg (r2 + 1)) false) ∧
  (∀ x2 a2, s.fullOk b (s.ea x2 a2) → let start := s.halfAt b (s.ea x2 a2)
    let stop := s.halfAt b (s.ea x2 a2 + 2)
    ends (.rb r1 x2 a2) 4 start stop true ∧ ends (.wb r1 x2 a2) 4 start stop false) ∧
  (∀ x2 a2, let e := s.byteAt 0 0x0078
    let n : Nat := max 0x80 (s.ea x2 a2).toNat + 1 - 0x80
    s.bytesOk 0 n 0x0080 → ∃ t, exec (.al 0 x2 a2) s = .next t ∧ t.requests = s.requests ∧
      s.ccAndLc t (s.psw.lc + 4) ∧ s.Keeps (t.withDevicesOf s) [] (span 0 0x0080 n) ∧
      ((s.reply e).timeout = true → t.psw.cc.v = true ∧ t.bus = s.bus ∧ s.Keeps (t.withDevicesOf s) [] nowhere) ∧
      ∀ c leader done rest, s.answers e = c :: leader ++ done ++ rest → c.timeout = false →
        (∀ r ∈ leader ++ done, goodTransfer r) → (∀ r ∈ leader, (r.data.setWidth 8 : Byte) = 0) →
        (∀ r, done.head? = some r → (r.data.setWidth 8 : Byte) ≠ 0) →
        let op (j : Nat) : BusOp := if j = 0 then .command e (s.byteAt 0 0x0079) else .readByte e
        let wrote : Prop := t.holdsData 0 0x0080 done ∧ s.Keeps (t.withDevicesOf s) [] (span 0 0x0080 done.length)
        (done.length = n → s.blockEnds t (1 + leader.length + n) none op ∧ wrote) ∧
        (∀ r, rest.head? = some r → ¬ goodTransfer r → done.length < n →
          s.blockEnds t (1 + leader.length + done.length) (some r) op ∧ wrote))

/-! ### Lists -/

/-- 49_list_trig_augment.md R400 to R403. Of the two pointers an instruction accesses only its own. -/
def Obligations.ListAdd : Prop := ∀ (s : State) (r1 x2 : Nibble) (a2 : Word),
  Memory.wf s.mem = true →
  let b := s.psw.obank
  let a := s.ea x2 a2
  let n := s.byteAt b a
  let used := s.byteAt b (a + 1)
  let top := s.byteAt b (a + 2)
  let bot := s.byteAt b (a + 3)
  let adds (i : Instr) (slot pointer : Byte) (place : Word) : Prop :=
    let e : Word := a + 4 + 2 * slot.setWidth 16
    ∃ t, exec i s = .next t ∧ t.halfAt b e = s.reg r1 ∧ t.byteAt b (a + 1) = used + 1 ∧ t.byteAt b place = pointer ∧
      t.psw.cc = ⟨false, false, false, false⟩ ∧ s.ccAndLc t (s.psw.lc + 4) ∧
      s.Keeps t [] fun b' a' => b' = b ∧ (a' = a + 1 ∨ a' = place ∨ a' = e ∨ a' = e + 1)
  let overflows (i : Instr) : Prop := ∃ t, exec i s = .next t ∧ s.setsCc t 4 (· = ⟨false, true, false, false⟩)
  (s.headerOk b a (a + 2) →
    (used = n → overflows (.atl r1 x2 a2)) ∧
    (used.toNat < n.toNat → top.toNat < n.toNat →
      s.halfOk b (a + 4 + 2 * (if top = 0 then n - 1 else top - 1).setWidth 16) →
      adds (.atl r1 x2 a2) (if top = 0 then n - 1 else top - 1) (if top = 0 then n - 1 else top - 1) (a + 2)) ∧
    (used ≠ n → (n.toNat < used.toNat ∨ n.toNat ≤ top.toNat) → exec (.atl r1 x2 a2) s = .refused .listHeader)) ∧
  (s.headerOk b a (a + 3) →
    (used = n → overflows (.abl r1 x2 a2)) ∧
    (used.toNat < n.toNat → bot.toNat < n.toNat → s.halfOk b (a + 4 + 2 * bot.setWidth 16) →
      adds (.abl r1 x2 a2) bot (if bot = n - 1 then 0 else bot + 1) (a + 3)) ∧
    (used ≠ n → (n.toNat < used.toNat ∨ n.toNat ≤ bot.toNat) → exec (.abl r1 x2 a2) s = .refused .listHeader)) ∧
  (¬ isEven a → ∀ i ∈ [Instr.atl r1 x2 a2, .abl r1 x2 a2], exec i s = .refused .oddAddress)

/-- 49_list_trig_augment.md R400, R401, R404, R405. Of the two pointers an instruction accesses only its own. -/
def Obligations.ListRemove : Prop := ∀ (s : State) (r1 x2 : Nibble) (a2 : Word),
  Memory.wf s.mem = true →
  let b := s.psw.obank
  let a := s.ea x2 a2
  let n := s.byteAt b a
  let used := s.byteAt b (a + 1)
  let top := s.byteAt b (a + 2)
  let bot := s.byteAt b (a + 3)
  let takes (i : Instr) (slot pointer : Byte) (place : Word) : Prop :=
    ∃ t, exec i s = .next t ∧ t.reg r1 = s.halfAt b (a + 4 + 2 * slot.setWidth 16) ∧
      t.byteAt b (a + 1) = used - 1 ∧ t.byteAt b place = pointer ∧
      t.psw.cc = ⟨false, false, decide (used ≠ 1), false⟩ ∧ s.ccAndLc t (s.psw.lc + 4) ∧
      s.Keeps t [r1] fun b' a' => b' = b ∧ (a' = a + 1 ∨ a' = place)
  let underflows (i : Instr) : Prop := ∃ t, exec i s = .next t ∧ s.setsCc t 4 (· = ⟨false, true, false, false⟩)
  (s.headerOk b a (a + 2) →
    (used = 0 → underflows (.rtl r1 x2 a2)) ∧
    (used ≠ 0 → used.toNat ≤ n.toNat → top.toNat < n.toNat → s.halfOk b (a + 4 + 2 * top.setWidth 16) →
      takes (.rtl r1 x2 a2) top (if top = n - 1 then 0 else top + 1) (a + 2)) ∧
    (used ≠ 0 → (n.toNat < used.toNat ∨ n.toNat ≤ top.toNat) → exec (.rtl r1 x2 a2) s = .refused .listHeader)) ∧
  (s.headerOk b a (a + 3) →
    (used = 0 → underflows (.rbl r1 x2 a2)) ∧
    (used ≠ 0 → used.toNat ≤ n.toNat → bot.toNat < n.toNat →
      s.halfOk b (a + 4 + 2 * (if bot = 0 then n - 1 else bot - 1).setWidth 16) →
      takes (.rbl r1 x2 a2) (if bot = 0 then n - 1 else bot - 1) (if bot = 0 then n - 1 else bot - 1) (a + 3)) ∧
    (used ≠ 0 → (n.toNat < used.toNat ∨ n.toNat ≤ bot.toNat) → exec (.rbl r1 x2 a2) s = .refused .listHeader)) ∧
  (¬ isEven a → ∀ i ∈ [Instr.rtl r1 x2 a2, .rbl r1 x2 a2], exec i s = .refused .oddAddress)

/-! ### The trigonometric option -/

/-- 49_list_trig_augment.md R417 to R419, R426: the precision register; cosine and sine complete for every angle, and
at the four quadrant angles they lie within the error of Table VI-3 of the exact values. -/
def Obligations.CosineSine : Prop := ∀ (s : State) (r1 r2 : Nibble),
  (∃ t, exec (.ecpr r1 r2) s = .next t ∧ t.reg r1 = s.cpr ∧ t.cpr = 0x0010 ||| (0x001C &&& s.reg r2) ∧
    s.lcOnly t (s.psw.lc + 2) ∧ s.Keeps { t with cpr := s.cpr } [r1] nowhere) ∧
  (isEven r1 → r1.toNat ≤ 12 →
    let near (v : Full) (x : Int) : Prop := (v.toInt - x).natAbs ≤ errorCos s.cpr
    let turns (i : Instr) (len : Word) (w : Full) : Prop := ∃ t, exec i s = .next t ∧
      s.lcOnly t (s.psw.lc + len) ∧ s.Keeps t [r1, r1 + 1, r1 + 2, r1 + 3] nowhere ∧
      (w = 0x00000000 → near (t.pair r1) (2 ^ 30) ∧ near (t.pair (r1 + 2)) 0) ∧
      (w = 0x40000000 → near (t.pair r1) 0 ∧ near (t.pair (r1 + 2)) (2 ^ 30)) ∧
      (w = 0x80000000 → near (t.pair r1) (-2 ^ 30) ∧ near (t.pair (r1 + 2)) 0) ∧
      (w = 0xC0000000 → near (t.pair r1) 0 ∧ near (t.pair (r1 + 2)) (-2 ^ 30))
    (isEven r2 → turns (.cosr r1 r2) 2 (s.pair r2)) ∧
    (∀ x2 a2, s.fullOk s.psw.obank (s.ea x2 a2) → turns (.cos r1 x2 a2) 4 (s.fullAt s.psw.obank (s.ea x2 a2))))

/-- 49_list_trig_augment.md R420 to R423, R426: where the function does not exist V is set and no register changes, else
V is reset; the zero vector gives zeros. The arc sine lies within the error of Table VI-3 of its value at 0 and at both
ends of its range, the arc tangent of its value on the axes (on the negative x axis, where the four-quadrant angle alone
is not admitted, or of the principal value: log 25), and the root of the sum of the squares of its value everywhere. -/
def Obligations.ArcFunctions : Prop := ∀ (s : State) (r1 : Nibble), isEven r1 →
  let fails (i : Instr) (len : Word) : Prop := ∃ t, exec i s = .next t ∧ s.setsCc t len (overflowFlag true)
  let arcSine (i : Instr) (len : Word) (z y : Full) : Prop :=
    let p := y.toInt.natAbs
    let q := z.toInt.natAbs
    (q < p ∨ (z = 0 ∧ y = 0) → fails i len) ∧
    (p ≤ q → z ≠ 0 → ∃ t, exec i s = .next t ∧ s.putsPair t len r1 (t.pair r1) (overflowFlag false) ∧
      (p = 0 → within (errorAsn s.cpr) (t.pair r1).toInt 0) ∧
      (p = q → 0 < y.toInt → within (errorAsn s.cpr) (t.pair r1).toInt (2 ^ 30)) ∧
      (p = q → y.toInt < 0 → within (errorAsn s.cpr) (t.pair r1).toInt (-2 ^ 30)))
  let arcTangent (i : Instr) (len : Word) (x y : Full) : Prop :=
    let n : Nat := x.toInt.natAbs ^ 2 + y.toInt.natAbs ^ 2
    let angle (t : State) (a : Full) : Prop := within (errorAtn s.cpr) (t.pair r1 - a).toInt 0
    let ends : Prop := ∃ t, exec i s = .next t ∧ s.putsQuad t len r1 (t.quad r1) (overflowFlag false) ∧
      nearRootOf (errorHyp s.cpr) n (t.pair (r1 + 2)).toInt ∧
      (y = 0 → 0 < x.toInt → angle t 0) ∧
      (x = 0 → 0 < y.toInt → angle t 0x40000000) ∧ (x = 0 → y.toInt < 0 → angle t 0xC0000000) ∧
      (y = 0 → x.toInt < 0 → angle t 0x80000000 ∨ (Config.atnFourQuadrant = false ∧ angle t 0))
    (x = 0 → y = 0 → ∃ t, exec i s = .next t ∧ s.putsQuad t len r1 0 (overflowFlag false)) ∧
    (n ≠ 0 → fails i len ∨ ends) ∧
    ((2 ^ 31 - 1 + errorHyp s.cpr) ^ 2 < n → fails i len) ∧
    (n ≠ 0 → n ≤ (2 ^ 31 - 1 - errorHyp s.cpr) ^ 2 → ends)
  (∀ r2, isEven r2 → r2.toNat ≤ 12 → arcSine (.asnr r1 r2) 2 (s.pair r2) (s.pair (r2 + 2)) ∧
    (r1.toNat ≤ 12 → arcTangent (.atnr r1 r2) 2 (s.pair r2) (s.pair (r2 + 2)))) ∧
  (∀ x2 a2, s.fullOk s.psw.obank (s.ea x2 a2) → s.fullOk s.psw.obank (s.ea x2 a2 + 4) →
    let z := s.fullAt s.psw.obank (s.ea x2 a2)
    let y := s.fullAt s.psw.obank (s.ea x2 a2 + 4)
    arcSine (.asn r1 x2 a2) 4 z y ∧ (r1.toNat ≤ 12 → arcTangent (.atn r1 x2 a2) 4 z y))

/-- 49_list_trig_augment.md R424 to R426: the root of the difference of the squares, within the error of Table VI-3,
exact zero for equal magnitudes; V where it does not exist. -/
def Obligations.RootDifference : Prop := ∀ (s : State) (r1 : Nibble), isEven r1 →
  let root (i : Instr) (len : Word) (x y : Full) : Prop :=
    let p := x.toInt.natAbs
    let q := y.toInt.natAbs
    (p < q → ∃ t, exec i s = .next t ∧ s.setsCc t len (overflowFlag true)) ∧
    (p = q → ∃ t, exec i s = .next t ∧ s.putsPair t len r1 0 (overflowFlag false)) ∧
    (q < p → ∃ t, exec i s = .next t ∧ nearRootOf (errorSqd s.cpr) (p * p - q * q) (t.pair r1).toInt ∧
      s.putsPair t len r1 (t.pair r1) (overflowFlag false))
  (∀ r2, isEven r2 → r2.toNat ≤ 12 → root (.sqdr r1 r2) 2 (s.pair r2) (s.pair (r2 + 2))) ∧
  (∀ x2 a2, s.fullOk s.psw.obank (s.ea x2 a2) → s.fullOk s.psw.obank (s.ea x2 a2 + 4) →
    root (.sqd r1 x2 a2) 4 (s.fullAt s.psw.obank (s.ea x2 a2)) (s.fullAt s.psw.obank (s.ea x2 a2 + 4)))

/-! ### The augment set -/

/-- 49_list_trig_augment.md R431, R432. -/
def Obligations.StatusBits : Prop := ∀ (s : State) (i2 : Word), s.psw.prot = false →
  (∃ t, exec (.sesb 0 0 i2) s = .next t ∧ t.psw.status = s.psw.status ||| (i2 &&& 0xFF00) ∧
    t.psw.lc = s.psw.lc + 4 ∧ s.Keeps t [] nowhere) ∧
  (∃ t, exec (.resb 0 0 i2) s = .next t ∧ t.psw.status = s.psw.status &&& ~~~(i2 &&& 0xFF00) ∧
    t.psw.lc = s.psw.lc + 4 ∧ s.Keeps t [] nowhere)

/-- 49_list_trig_augment.md R433 to R438. -/
def Obligations.LoadConverted : Prop := ∀ (s : State) (r1 : Nibble),
  let complement (v : Word) : Word := 0 - v
  let base (v : Word) : Word := if v.toNat < 0x8000 then v else 0x8000 - v
  let magnitude (v : Word) : Word := .ofNat 16 v.toInt.natAbs
  let flags (c v : Prop) (r : Word) (cc : Cc) : Prop := (cc.c = true ↔ c) ∧ (cc.v = true ↔ v) ∧ signFlags r cc
  let converts (i : Instr) (len v : Word) (f : Word → Word) (c o : Prop) : Prop := ∃ t, exec i s = .next t ∧
    s.putsHalf t len r1 (f v) (flags c o (f v))
  (∀ r2 : Nibble, let v := s.reg r2
    converts (.lchr r1 r2) 2 v complement (v ≠ 0) (v = 0x8000) ∧
    converts (.lcnhr r1 r2) 2 v base (v = 0x8000) False ∧
    converts (.lavr r1 r2) 2 v magnitude (v.toInt < 0) (v = 0x8000)) ∧
  (∀ (x2 : Nibble) (a2 : Word), s.halfOk s.psw.obank (s.ea x2 a2) → let v := s.halfAt s.psw.obank (s.ea x2 a2)
    converts (.lch r1 x2 a2) 4 v complement (v ≠ 0) (v = 0x8000) ∧
    converts (.lcnh r1 x2 a2) 4 v base (v = 0x8000) False ∧
    converts (.lav r1 x2 a2) 4 v magnitude (v.toInt < 0) (v = 0x8000))

/-- 46_floating_point.md R320 to R333, 30_encoding.md R114. -/
def Obligations.NoOperations : Prop := ∀ (s : State) (r1 r2 : Nibble) (a2 : Word),
  (∀ i ∈ [Instr.lfr r1 r2, .afr r1 r2, .sfr r1 r2, .cfr r1 r2, .mfr r1 r2, .dfr r1 r2],
    ∃ t, exec i s = .next t ∧ s.lcOnly t (s.psw.lc + 2) ∧ s.Keeps t [] nowhere) ∧
  (∀ i ∈ [Instr.lf r1 r2 a2, .stf r1 r2 a2, .af r1 r2 a2, .sf r1 r2 a2, .cf r1 r2 a2, .mf r1 r2 a2, .df r1 r2 a2],
    ∃ t, exec i s = .next t ∧ s.lcOnly t (s.psw.lc + 4) ∧ s.Keeps t [] nowhere)

/-! ### Traps and refusals -/

/-- 60_exceptions.md R467, R476. -/
def Obligations.PrivilegedTrap : Prop := ∀ (s : State) (r1 r2 : Nibble) (a2 : Word),
  Memory.wf s.mem = true → s.psw.prot = true →
  ∀ i ∈ [Instr.air r1 r2, .ai r1 r2 a2, .ssr r1 r2, .ss r1 r2 a2, .ocr r1 r2, .oc r1 r2 a2, .rdr r1 r2,
      .rd r1 r2 a2, .wdr r1 r2, .wd r1 r2 a2, .al r1 r2 a2, .rhr r1 r2, .rh r1 r2 a2, .whr r1 r2, .wh r1 r2 a2,
      .rbr r1 r2, .rb r1 r2 a2, .wbr r1 r2, .wb r1 r2 a2, .lpsw r1 r2 a2, .epsr r1 r2, .sint r1 r2 a2,
      .sesb r1 r2 a2, .resb r1 r2 a2],
    ∃ t, exec i s = .next t ∧ s.swapped t s.psw.status s.psw.lc 0x0030 0x0034

/-- 30_encoding.md R109 step 6: a broken field restriction is refused by name (log 6, log 7). -/
def Obligations.FieldRestrictions : Prop := ∀ (i : Instr) (s : State), s.psw.prot = false →
  (registersOk i = false → exec i s = .refused .registerField) ∧
  (zerosOk i = false → exec i s = .refused .mustBeZero)

/-- 20_memory.md R61, R67, 92_eei_decisions.md D4: an operand or an instruction at an odd address, or where there is no
memory, is refused by name (log 4, log 5); the destination of RD and RH need not be memory where a time-out leaves it
unwritten (log 49). -/
def Obligations.RefusedAccesses : Prop := ∀ (s : State),
  (s.psw.prot = false → ∀ (r x : Nibble) (a : Word),
    let e := s.ea x a
    let o := s.psw.obank
    let unwritten (i : Instr) : Prop := (i = .rd r x a ∨ i = .rh r x a) ∧
      (s.reply ((s.reg r).setWidth 8)).timeout = true ∧ s.params.timeoutDraws = false
    (∀ p ∈ ([(.lh r x a, o), (.lh0 r x a, 0), (.lh1 r x a, 1), (.lh2 r x a, 2), (.lh3 r x a, 3), (.lm r x a, o),
        (.ldp r x a, o), (.sth r x a, o), (.sth0 r x a, 0), (.sth1 r x a, 1), (.sth2 r x a, 2), (.sth3 r x a, 3),
        (.stm r x a, o), (.stdp r x a, o), (.ah r x a, o), (.ahm r x a, o), (.ach r x a, o), (.adp r x a, o),
        (.sh r x a, o), (.sch r x a, o), (.sdp r x a, o), (.mh r x a, o), (.mhu r x a, o), (.mdp r x a, o),
        (.dh r x a, o), (.ddp r x a, o), (.nh r x a, o), (.oh r x a, o), (.xh r x a, o), (.clh r x a, o),
        (.cldp r x a, o), (.ch r x a, o), (.cdp r x a, o), (.le r x a, o), (.ste r x a, o), (.ae r x a, o),
        (.se r x a, o), (.ce r x a, o), (.me r x a, o), (.de r x a, o), (.lpsw r x a, o), (.rh r x a, o),
        (.wh r x a, o), (.rb r x a, o), (.wb r x a, o), (.atl r x a, o), (.abl r x a, o), (.rtl r x a, o),
        (.rbl r x a, o), (.cos r x a, o), (.asn r x a, o), (.atn r x a, o), (.sqd r x a, o), (.lch r x a, o),
        (.lcnh r x a, o), (.lav r x a, o)] : List (Instr × Bank)),
      wellFormed p.1 = true →
        (¬ isEven e → exec p.1 s = .refused .oddAddress) ∧
        (isEven e → ¬ (s.byteOk p.2 e ∧ s.byteOk p.2 (e + 1)) → ¬ unwritten p.1 →
          exec p.1 s = .refused .absentMemory)) ∧
    (¬ s.byteOk o e → ∀ i ∈ ([.lb r x a, .stb r x a, .clb r x a, .ai r x a, .ss r x a, .oc r x a, .rd r x a,
      .wd r x a] : List Instr), ¬ unwritten i → exec i s = .refused .absentMemory)) ∧
  (s.arrivals.headD [] = [] → s.power = .running → s.quiet → s.psw.ctEn = false → s.psw.wait = false →
    (¬ isEven s.psw.lc → step s = .refused .oddFetch) ∧
    (isEven s.psw.lc → ¬ (s.byteOk s.psw.pbank s.psw.lc ∧ s.byteOk s.psw.pbank (s.psw.lc + 1)) →
      step s = .refused .absentMemory))

/-! ### The machine -/

/-- 30_encoding.md R113, 49_list_trig_augment.md R416, R430, 60_exceptions.md R466: the codes that no listing assigns
and that cannot be a lost one, and those of an option that is not fitted. -/
def Obligations.IllegalInstruction : Prop := ∀ (s : State), Memory.wf s.mem = true → s.Ready →
  let op := (s.byteAt s.psw.pbank s.psw.lc).toNat
  op ∈ [0x00, 0x13, 0x14, 0x16, 0x17, 0x1E, 0x1F, 0x30, 0x31, 0x32, 0x33, 0x34,
      0x35, 0x36, 0x37, 0x3E, 0x3F, 0x54, 0x56, 0x57, 0x5E, 0x5F, 0x62, 0x63, 0x6E, 0x6F, 0x71, 0x72, 0x73, 0x7E,
      0x7F, 0xA0, 0xA1, 0xA2, 0xA3, 0xA4, 0xA5, 0xA6, 0xA7, 0xA8, 0xA9, 0xAA, 0xAB, 0xAC, 0xAD, 0xAE, 0xAF, 0xB0,
      0xB1, 0xB2, 0xB3, 0xB4, 0xB5, 0xB6, 0xB7, 0xB8, 0xB9, 0xBA, 0xBB, 0xBC, 0xBD, 0xBE, 0xBF, 0xF0, 0xF5, 0xF6,
      0xF7, 0xFC, 0xFD, 0xFE, 0xFF] ∨
    (s.params.hasAugment = false ∧ op ∈ [0x10, 0x11, 0x12, 0x51, 0x52, 0x53, 0xE3, 0xE4]) ∨
    (s.params.hasTrig = false ∧ op ∈ [0x80, 0x81, 0x82, 0x83, 0x84, 0x85, 0x86, 0x87, 0x88, 0x89, 0x8A, 0x8B, 0x8C,
      0x8D, 0x8E, 0x8F, 0xF1, 0xF2, 0xF3, 0xF4]) →
  ∃ t, step s = .next t ∧ s.begun.swapped t s.psw.status s.psw.lc 0x0030 0x0034

/-- 30_encoding.md R109, 60_exceptions.md R452: with no host event due at the boundary (`HostEvents` says what one does)
and nothing pending, a step is `exec` of the instruction that the bytes at PBANK:LC decode to; a second halfword that is
fetched must be memory. -/
def Obligations.StepRunsDecoded : Prop := ∀ (s : State) (i : Instr), s.Ready →
  let w1 := s.halfAt s.psw.pbank s.psw.lc
  decode s.params w1 (s.halfAt s.psw.pbank (s.psw.lc + 2)) = .ok i →
  (secondFetched w1 = true → s.halfOk s.psw.pbank (s.psw.lc + 2)) → step s = exec i s.begun

/-- 60_exceptions.md R451, R452, R460, R468 to R471, R475, R484: where a class is pending and enabled, the step is the
procedure of one such class, before the wait state and before any instruction; where none is, a waiting processor stays.
Which classes those are `State.signals` says, from the state alone. Masked parity signals are dropped first (log 41).
The Location Counter stored is log 35, the choice among several log 14, that the Immediate Interrupt's block and the
queue lie in bank 0 log 21, the refusal of an odd Service Pointer log 20, the wait state log 30, the place of the Queue
Pointer the parameter of log 17. -/
def Obligations.BoundaryInterrupts : Prop := ∀ (s : State),
  Memory.wf s.mem = true → s.arrivals.headD [] = [] → s.power = .running →
  (s.psw.ctEn = true → s.queueOk) →
  let b := s.begun.dropMasked
  let swaps (u : State) (old new : Word) : Prop := b.swapped u s.psw.status s.psw.lc old new
  let taken (o : Out) (c : Condition) : Prop :=
    match c with
    | .external => ∃ t, o = .next t ∧ swaps t 0x0040 0x0044
    | .channel => ∃ t, o = .next t ∧ swaps t 0x0082 0x0086
    | .powerFailure => ∃ u, swaps u 0x0038 0x003C ∧
      o = .next { u with apfPending := false, psw := { u.psw with cc := { u.psw.cc with l := true } } }
    | .parityInstr => ∃ u, swaps u 0x0038 0x003C ∧
      o = .next { u with parityInstr := false, psw := { u.psw with cc := { u.psw.cc with g := true } } }
    | .parityOperand => ∃ u, swaps u 0x0038 0x003C ∧
      o = .next { u with parityOperand := false, psw := { u.psw with cc := { u.psw.cc with v := true } } }
    | .immediate => ∃ q rest, s.requests = q :: rest ∧ let sp := s.halfAt 0 (0x00D0 + 2 * q.device.setWidth 16)
      (¬ isEven sp → o = .refused .channelService) ∧
      (s.halvesOk 0 3 sp → ∃ t, o = .next t ∧ t.requests = rest ∧ t.halfAt 0 sp = s.psw.status ∧
        t.halfAt 0 (sp + 2) = s.psw.lc ∧ t.psw.status = s.halfAt 0 (sp + 4) ∧ t.psw.lc = sp + 6 ∧
        b.Keeps { t with requests := s.requests } [] (span 0 sp 4))
  (¬ s.quiet → ∃ c, s.signals c ∧ taken (step s) c) ∧
  (s.quiet → s.psw.wait = true → step s = .next b)

/-- 10_state.md R42, 60_exceptions.md R480 to R482, R485, R487: what the power down sequence saves the restart brings
back, with the Machine Malfunction where it is enabled; without valid memory, or after Power-Off, the processor goes
through Start-up; the program load signal starts the loading. The save area is taken clear of the fixed locations. Its
bank is log 21; that a mode's sequence is one step, and what Start-up leaves, log 36. -/
def Obligations.PowerModes : Prop := ∀ (s : State),
  (Memory.wf s.mem = true → s.power = .running → let rsp := s.halfAt 0 0x0022
    s.halvesOk 0 16 rsp → 0x0028 ≤ rsp.toNat → rsp.toNat ≤ 0xFFE0 →
    ∃ t, s.deliver .powerDown = .next t ∧ t.power = .powerDown ∧ t.psw = s.psw ∧
      (∀ r : Nibble, t.reg r = s.reg r ∧ t.halfAt 0 (rsp + 2 * r.setWidth 16) = s.reg r) ∧
      t.halfAt 0 0x0024 = s.psw.status ∧ t.halfAt 0 0x0026 = s.psw.lc ∧
      ∀ u : State, u.mem = t.mem → u.params = s.params → u.power = .restart → u.arrivals.headD [] = [] →
        ∃ v, step u = .next v ∧ v.power = .running ∧ v.apfPending = false ∧ legalCpr v.cpr = true ∧
          (∀ r : Nibble, v.reg r = s.reg r) ∧ (s.psw.mmEn = false → v.psw = s.psw) ∧
          (s.psw.mmEn = true → v.halfAt 0 0x0038 = s.psw.status ∧ v.halfAt 0 0x003A = s.psw.lc ∧
            v.psw.status = t.halfAt 0 0x003C ∧ v.psw.lc = t.halfAt 0 0x003E)) ∧
  (∀ valid : Bool, s.deliver (.powerRestore valid) =
    .next (if valid = true ∧ s.power ≠ .powerOff then { s with memOperational := true, power := .restart }
      else { s with memOperational := false, power := .startUp })) ∧
  (s.power = .running ∨ s.power = .startUp → s.deliver .programLoad = .next { s with power := .programLoad }) ∧
  (s.arrivals.headD [] = [] → s.power = .programLoad ∨ (s.power = .startUp ∧ s.memOperational = false) →
    ∃ v, step s = .next v ∧ v.power = .running ∧ v.memOperational = true ∧ v.apfPending = false ∧
      legalCpr v.cpr = true ∧ v.rtc = s.rtc ∧ v.etc = s.etc ∧ v.requests = s.requests ∧ v.params = s.params) ∧
  (s.arrivals.headD [] = [] → s.power = .powerDown ∨ s.power = .standBy ∨ s.power = .powerOff →
    step s = .next s.begun)

/-- 60_exceptions.md R473: the entry of a termination pointer into the queue, full or not. That the Condition Code stays
as it is log 51, that a processor that is not running does nothing log 36, the bank of the queue log 21, its place the
parameter of log 17. -/
def Obligations.ChannelTerminate : Prop := ∀ (s : State) (p : Word), Memory.wf s.mem = true →
  let q := s.halfAt 0 s.params.qptrLoc
  let n := s.byteAt 0 q
  let used := s.byteAt 0 (q + 1)
  let top := s.byteAt 0 (q + 2)
  let bot := s.byteAt 0 (q + 3)
  let adds (e : QueueEnd) (slot pointer : Byte) (place : Word) : Prop :=
    let a : Word := q + 4 + 2 * slot.setWidth 16
    s.halfOk 0 a → ∃ t, s.deliver (.channelTerminate p e) = .next t ∧ t.psw = s.psw ∧ t.halfAt 0 a = p ∧
      t.byteAt 0 (q + 1) = used + 1 ∧ t.byteAt 0 place = pointer ∧
      s.Keeps t [] fun b a' => b = 0 ∧ (a' = q + 1 ∨ a' = place ∨ a' = a ∨ a' = a + 1)
  (s.power = .running → s.halfOk 0 s.params.qptrLoc →
    (s.bytesOk 0 2 q → used = n → ∀ e, ∃ t, s.deliver (.channelTerminate p e) = .next t ∧ t.halfAt 0 0x008A = p ∧
      t.halfAt 0 0x008C = s.psw.status ∧ t.halfAt 0 0x008E = s.psw.lc ∧ t.psw.status = s.halfAt 0 0x0090 ∧
      t.psw.lc = s.halfAt 0 0x0092 ∧ s.Keeps t [] (span 0 0x008A 6)) ∧
    (used.toNat < n.toNat →
      let before : Byte := if top = 0 then n - 1 else top - 1
      (s.headerOk 0 q (q + 2) → top.toNat < n.toNat → adds .top before before (q + 2)) ∧
      (s.headerOk 0 q (q + 3) → bot.toNat < n.toNat →
        adds .bottom bot (if bot = n - 1 then 0 else bot + 1) (q + 3)))) ∧
  (s.power ≠ .running → ∀ e, s.deliver (.channelTerminate p e) = .next s)

/-- 60_exceptions.md R452, R459: a step first delivers the host events of its boundary, in their order; a refused one
stops it, events that change the mode take it (log 36), and else it goes on as the step of the state they leave, with no
event due (`StepRunsDecoded`, `BoundaryInterrupts`, `PowerModes`). Then what each event does: requests on the
acknowledge chain (R474), answers of a device (48_io.md R363, log 18), the three malfunction signals (R460), a DMA write
(20_memory.md R79), Stand-By and Power-Off, whose memory is arbitrary (R481, R486, log 36), and the clocks (R489,
10_state.md R41): after `n` milliseconds the Real-Time clock has gone up by `n`, from zero again every 200 days, the
Elapsed Time clock down by `n`. That events fall at boundaries is log 42, that the clocks are state of the environment
and bring no interrupt log 29. The other events are those of `PowerModes` and `ChannelTerminate`. -/
def Obligations.HostEvents : Prop := ∀ (s : State),
  let moves (e : HostEvent) (t : State) : Prop := s.deliver e = .next t
  (∀ es rest, s.arrivals = es :: rest → let o := s.begun.deliverAll es
    (∀ r, o = .refused r → step s = .refused r) ∧
    (∀ t, o = .next t → t.arrivals = rest ∧ (t.power ≠ s.power → step s = .next t) ∧
      (t.power = s.power → step s = step { t with arrivals := [] :: rest }))) ∧
  s.deliverAll [] = .next s ∧
  (∀ e es, (∀ t, moves e t → s.deliverAll (e :: es) = t.deliverAll es) ∧
    ∀ r, s.deliver e = .refused r → s.deliverAll (e :: es) = .refused r) ∧
  (∀ r, chainFrom 0 s.requests = true → ∃ rs, moves (.request r) { s with requests := rs } ∧
    chainFrom 0 rs = true ∧ ∀ q, q ∈ rs ↔ q = r ∨ (q ∈ s.requests ∧ q.chain ≠ r.chain)) ∧
  (∀ k, moves (.dropRequest k) { s with requests := s.requests.filter fun q => q.chain != k }) ∧
  (∀ r, ∃ t, moves (.reply r) t ∧ t = { s with replies := t.replies } ∧
    t.answers r.device = s.answers r.device ++ [r] ∧ ∀ d, d ≠ r.device → t.answers d = s.answers d) ∧
  moves .parityInstr { s with parityInstr := true } ∧
  moves .parityOperand { s with parityOperand := true } ∧
  moves .advancePowerFailure { s with apfPending := true } ∧
  (∀ b a v, (¬ s.byteOk b a → s.deliver (.dmaWrite b a v) = .refused .absentMemory) ∧
    (s.byteOk b a → Memory.wf s.mem = true → ∃ t, moves (.dmaWrite b a v) t ∧ t.byteAt b a = v ∧ t.psw = s.psw ∧
      s.Keeps t [] (span b a 1))) ∧
  moves .standBy { s with power := .standBy } ∧
  (∃ t, moves .powerOff t ∧ Memory.wf t.mem = true ∧
    t = { s with mem := t.mem, draws := t.draws, power := .powerOff, memOperational := false }) ∧
  (s.rtc < 17280000000 → ∀ n, s.deliverAll (List.replicate n .tick) =
    .next { s with rtc := (s.rtc + n) % 17280000000, etc := s.etc - n })

/-- 60_exceptions.md R467, R476, R453, 10_state.md R34, R42, 48_io.md R360: what no other instruction can change. -/
def Obligations.GuardedState : Prop := ∀ (i : Instr) (s t : State), exec i s = .next t →
  (t.cpr = s.cpr ∨ ∃ r1 r2, i = .ecpr r1 r2) ∧
  (t.apfPending = s.apfPending ∧ t.parityInstr = s.parityInstr ∧ t.parityOperand = s.parityOperand ∧
    t.power = s.power ∧ t.memOperational = s.memOperational ∧ t.rtc = s.rtc ∧ t.etc = s.etc ∧
    t.arrivals = s.arrivals ∧ t.params = s.params) ∧
  (s.psw.prot = true → t.requests = s.requests ∧ t.replies = s.replies ∧ t.bus = s.bus) ∧
  (s.psw.prot = true → t.psw.prot = false →
    (∃ a b w, i = .svc a b w) ∨ t = s.raiseProtect ∨
    (s.psw.fdfEn = true ∧ ∃ a b w, i ∈ [Instr.dhr a b, .dh a b w, .ddpr a b, .ddp a b w]) ∨
    (s.psw.fpfEn = true ∧ ∃ a b w, i ∈ [Instr.ler a b, .le a b w, .aer a b, .ae a b w, .ser a b, .se a b w,
      .mer a b, .me a b w, .der a b, .de a b w]))

/-- The invariant holds after reset. The values of reset are log 1, 2, 3 and 29. -/
def Obligations.ResetInvariant : Prop := State.reset.Inv ∧ State.reset.apfPending = false

/-- 20_memory.md R60, 10_state.md R34, R41, 60_exceptions.md R474: every step keeps the canonical form of memory, a
legal CPR, the order of the acknowledge chain and the period of the Real-Time clock. -/
def Obligations.StepKeepsInvariant : Prop := ∀ s t : State, s.Inv → step s = .next t → t.Inv

/-- 20_memory.md R62, R64, R68: big-endian, a group addressed by its leftmost byte, wrapping in its bank (log 44). That
the bytes not stored stay is the spec's decision (log 45); what is stored is read back in the canonical form (log 3). -/
def Obligations.MemoryReadWrite : Prop := ∀ (s : State) (b : Bank) (a : Word), Memory.wf s.mem = true →
  s.halfAt b a = s.byteAt b a ++ s.byteAt b (a + 1) ∧
  s.fullAt b a = s.byteAt b a ++ s.byteAt b (a + 1) ++ s.byteAt b (a + 2) ++ s.byteAt b (a + 3) ∧
  (∀ v : Byte, (s.setByte b a v).byteAt b a = v) ∧
  (∀ v : Word, (s.setHalf b a v).halfAt b a = v ∧
    ((s.setHalf b a v).byteAt b a ++ (s.setHalf b a v).byteAt b (a + 1) : Word) = v) ∧
  (∀ v : Full, (s.setFull b a v).fullAt b a = v ∧
    ((s.setFull b a v).halfAt b a ++ (s.setFull b a v).halfAt b (a + 2) : Full) = v) ∧
  (∀ (v : Full) (b' : Bank) (a' : Word), ¬ span b a 4 b' a' → (s.setFull b a v).byteAt b' a' = s.byteAt b' a')

/-! ### Encoding -/

/-- 30_encoding.md R101, R102, R111: for every instruction that has an encoding, its bytes, big-endian, with any bytes
after them decode to it and leave those bytes; a second halfword is there exactly when bit X'40' of the code is set.
An instruction of an option has an encoding where the option is fitted (log 47), the three lost instructions once their
parameter is set (log 12). -/
def Obligations.DecodeEncode : Prop := ∀ (ps : Params) (i : Instr) (e : Encoding) (rest : List Byte),
  encode ps i = some e →
  let bytes (w : Word) : List Byte := [w.extractLsb' 8 8, w.extractLsb' 0 8]
  decodeBytes ps (bytes e.first ++ (e.second.elim [] bytes ++ rest)) = .ok (i, rest) ∧
    (e.second.isSome = true ↔ e.first.getMsbD 1 = true)

/-- 30_encoding.md R101, R111: a word has one meaning, the instruction it decodes to is encoded as that word. -/
def Obligations.EncodeDecode : Prop := ∀ (ps : Params) (w1 w2 : Word) (i : Instr), decode ps w1 w2 = .ok i →
  encode ps i = some ⟨w1, if w1.getMsbD 1 then some w2 else none⟩

/-- Words printed with their instructions in the spec (40_load_store.md R141, R144, R145, 41_arithmetic.md R172,
44_shift_rotate.md R261, 45_branch.md R292, 46_floating_point.md R305, 47_system_control.md R342, 48_io.md R366,
49_list_trig_augment.md R402). -/
def Obligations.DecodeExamples : Prop :=
  let read := decode Params.default
  read 0x2437 0 = .ok (.lis 3 7) ∧ read 0xC862 0xFFFE = .ok (.lhi 6 2 0xFFFE) ∧
  read 0x4810 0x0050 = .ok (.lh 1 0 0x0050) ∧ read 0x2611 0 = .ok (.ais 1 1) ∧
  read 0xEB20 0x0010 = .ok (.rll 2 0 0x0010) ∧ read 0x01F5 0 = .ok (.balr 15 5) ∧
  read 0x2802 0 = .ok (.ler 0 2) ∧ read 0x2E30 0 = .ok (.epor 3 0) ∧ read 0x9D12 0 = .ok (.ssr 1 2) ∧
  read 0x6410 0x0400 = .ok (.atl 1 0 0x0400)

end Statements
end

