-- ==== Sys2Proof/Laws/State.lean ====
section
/-! SUPPORT. What each update of the state leaves alone and what it writes, field by field. -/

namespace Sys2Proof.Machine

variable (s : State)

/-! ### setReg -/

@[simp] theorem State.setReg_psw (r : Nibble) (v : Word) : (s.setReg r v).psw = s.psw := rfl
@[simp] theorem State.setReg_cpr (r : Nibble) (v : Word) : (s.setReg r v).cpr = s.cpr := rfl
@[simp] theorem State.setReg_mem (r : Nibble) (v : Word) : (s.setReg r v).mem = s.mem := rfl
@[simp] theorem State.setReg_apfPending (r : Nibble) (v : Word) : (s.setReg r v).apfPending = s.apfPending := rfl
@[simp] theorem State.setReg_parityInstr (r : Nibble) (v : Word) : (s.setReg r v).parityInstr = s.parityInstr := rfl
@[simp] theorem State.setReg_parityOperand (r : Nibble) (v : Word) : (s.setReg r v).parityOperand = s.parityOperand := rfl
@[simp] theorem State.setReg_power (r : Nibble) (v : Word) : (s.setReg r v).power = s.power := rfl
@[simp] theorem State.setReg_memOperational (r : Nibble) (v : Word) : (s.setReg r v).memOperational = s.memOperational := rfl
@[simp] theorem State.setReg_rtc (r : Nibble) (v : Word) : (s.setReg r v).rtc = s.rtc := rfl
@[simp] theorem State.setReg_etc (r : Nibble) (v : Word) : (s.setReg r v).etc = s.etc := rfl
@[simp] theorem State.setReg_requests (r : Nibble) (v : Word) : (s.setReg r v).requests = s.requests := rfl
@[simp] theorem State.setReg_replies (r : Nibble) (v : Word) : (s.setReg r v).replies = s.replies := rfl
@[simp] theorem State.setReg_bus (r : Nibble) (v : Word) : (s.setReg r v).bus = s.bus := rfl
@[simp] theorem State.setReg_arrivals (r : Nibble) (v : Word) : (s.setReg r v).arrivals = s.arrivals := rfl
@[simp] theorem State.setReg_draws (r : Nibble) (v : Word) : (s.setReg r v).draws = s.draws := rfl
@[simp] theorem State.setReg_params (r : Nibble) (v : Word) : (s.setReg r v).params = s.params := rfl
@[simp] theorem State.setReg_regs (r : Nibble) (v : Word) : (s.setReg r v).regs = s.regs.set r.toNat v r.isLt := rfl

/-! ### setPair -/

@[simp] theorem State.setPair_psw (r : Nibble) (v : Full) : (s.setPair r v).psw = s.psw := rfl
@[simp] theorem State.setPair_cpr (r : Nibble) (v : Full) : (s.setPair r v).cpr = s.cpr := rfl
@[simp] theorem State.setPair_mem (r : Nibble) (v : Full) : (s.setPair r v).mem = s.mem := rfl
@[simp] theorem State.setPair_apfPending (r : Nibble) (v : Full) : (s.setPair r v).apfPending = s.apfPending := rfl
@[simp] theorem State.setPair_parityInstr (r : Nibble) (v : Full) : (s.setPair r v).parityInstr = s.parityInstr := rfl
@[simp] theorem State.setPair_parityOperand (r : Nibble) (v : Full) : (s.setPair r v).parityOperand = s.parityOperand := rfl
@[simp] theorem State.setPair_power (r : Nibble) (v : Full) : (s.setPair r v).power = s.power := rfl
@[simp] theorem State.setPair_memOperational (r : Nibble) (v : Full) : (s.setPair r v).memOperational = s.memOperational := rfl
@[simp] theorem State.setPair_rtc (r : Nibble) (v : Full) : (s.setPair r v).rtc = s.rtc := rfl
@[simp] theorem State.setPair_etc (r : Nibble) (v : Full) : (s.setPair r v).etc = s.etc := rfl
@[simp] theorem State.setPair_requests (r : Nibble) (v : Full) : (s.setPair r v).requests = s.requests := rfl
@[simp] theorem State.setPair_replies (r : Nibble) (v : Full) : (s.setPair r v).replies = s.replies := rfl
@[simp] theorem State.setPair_bus (r : Nibble) (v : Full) : (s.setPair r v).bus = s.bus := rfl
@[simp] theorem State.setPair_arrivals (r : Nibble) (v : Full) : (s.setPair r v).arrivals = s.arrivals := rfl
@[simp] theorem State.setPair_draws (r : Nibble) (v : Full) : (s.setPair r v).draws = s.draws := rfl
@[simp] theorem State.setPair_params (r : Nibble) (v : Full) : (s.setPair r v).params = s.params := rfl

/-! ### setQuad -/

@[simp] theorem State.setQuad_psw (r : Nibble) (v : Quad) : (s.setQuad r v).psw = s.psw := rfl
@[simp] theorem State.setQuad_cpr (r : Nibble) (v : Quad) : (s.setQuad r v).cpr = s.cpr := rfl
@[simp] theorem State.setQuad_mem (r : Nibble) (v : Quad) : (s.setQuad r v).mem = s.mem := rfl
@[simp] theorem State.setQuad_apfPending (r : Nibble) (v : Quad) : (s.setQuad r v).apfPending = s.apfPending := rfl
@[simp] theorem State.setQuad_parityInstr (r : Nibble) (v : Quad) : (s.setQuad r v).parityInstr = s.parityInstr := rfl
@[simp] theorem State.setQuad_parityOperand (r : Nibble) (v : Quad) : (s.setQuad r v).parityOperand = s.parityOperand := rfl
@[simp] theorem State.setQuad_power (r : Nibble) (v : Quad) : (s.setQuad r v).power = s.power := rfl
@[simp] theorem State.setQuad_memOperational (r : Nibble) (v : Quad) : (s.setQuad r v).memOperational = s.memOperational := rfl
@[simp] theorem State.setQuad_rtc (r : Nibble) (v : Quad) : (s.setQuad r v).rtc = s.rtc := rfl
@[simp] theorem State.setQuad_etc (r : Nibble) (v : Quad) : (s.setQuad r v).etc = s.etc := rfl
@[simp] theorem State.setQuad_requests (r : Nibble) (v : Quad) : (s.setQuad r v).requests = s.requests := rfl
@[simp] theorem State.setQuad_replies (r : Nibble) (v : Quad) : (s.setQuad r v).replies = s.replies := rfl
@[simp] theorem State.setQuad_bus (r : Nibble) (v : Quad) : (s.setQuad r v).bus = s.bus := rfl
@[simp] theorem State.setQuad_arrivals (r : Nibble) (v : Quad) : (s.setQuad r v).arrivals = s.arrivals := rfl
@[simp] theorem State.setQuad_draws (r : Nibble) (v : Quad) : (s.setQuad r v).draws = s.draws := rfl
@[simp] theorem State.setQuad_params (r : Nibble) (v : Quad) : (s.setQuad r v).params = s.params := rfl

/-! ### setByte -/

@[simp] theorem State.setByte_regs (b : Bank) (a : Word) (v : Byte) : (s.setByte b a v).regs = s.regs := rfl
@[simp] theorem State.setByte_psw (b : Bank) (a : Word) (v : Byte) : (s.setByte b a v).psw = s.psw := rfl
@[simp] theorem State.setByte_cpr (b : Bank) (a : Word) (v : Byte) : (s.setByte b a v).cpr = s.cpr := rfl
@[simp] theorem State.setByte_apfPending (b : Bank) (a : Word) (v : Byte) : (s.setByte b a v).apfPending = s.apfPending := rfl
@[simp] theorem State.setByte_parityInstr (b : Bank) (a : Word) (v : Byte) : (s.setByte b a v).parityInstr = s.parityInstr := rfl
@[simp] theorem State.setByte_parityOperand (b : Bank) (a : Word) (v : Byte) : (s.setByte b a v).parityOperand = s.parityOperand := rfl
@[simp] theorem State.setByte_power (b : Bank) (a : Word) (v : Byte) : (s.setByte b a v).power = s.power := rfl
@[simp] theorem State.setByte_memOperational (b : Bank) (a : Word) (v : Byte) : (s.setByte b a v).memOperational = s.memOperational := rfl
@[simp] theorem State.setByte_rtc (b : Bank) (a : Word) (v : Byte) : (s.setByte b a v).rtc = s.rtc := rfl
@[simp] theorem State.setByte_etc (b : Bank) (a : Word) (v : Byte) : (s.setByte b a v).etc = s.etc := rfl
@[simp] theorem State.setByte_requests (b : Bank) (a : Word) (v : Byte) : (s.setByte b a v).requests = s.requests := rfl
@[simp] theorem State.setByte_replies (b : Bank) (a : Word) (v : Byte) : (s.setByte b a v).replies = s.replies := rfl
@[simp] theorem State.setByte_bus (b : Bank) (a : Word) (v : Byte) : (s.setByte b a v).bus = s.bus := rfl
@[simp] theorem State.setByte_arrivals (b : Bank) (a : Word) (v : Byte) : (s.setByte b a v).arrivals = s.arrivals := rfl
@[simp] theorem State.setByte_draws (b : Bank) (a : Word) (v : Byte) : (s.setByte b a v).draws = s.draws := rfl
@[simp] theorem State.setByte_params (b : Bank) (a : Word) (v : Byte) : (s.setByte b a v).params = s.params := rfl
@[simp] theorem State.setByte_mem (b : Bank) (a : Word) (v : Byte) : (s.setByte b a v).mem = memWrite s.mem (phys b a) v := rfl

/-! ### setHalf -/

@[simp] theorem State.setHalf_regs (b : Bank) (a v : Word) : (s.setHalf b a v).regs = s.regs := rfl
@[simp] theorem State.setHalf_psw (b : Bank) (a v : Word) : (s.setHalf b a v).psw = s.psw := rfl
@[simp] theorem State.setHalf_cpr (b : Bank) (a v : Word) : (s.setHalf b a v).cpr = s.cpr := rfl
@[simp] theorem State.setHalf_apfPending (b : Bank) (a v : Word) : (s.setHalf b a v).apfPending = s.apfPending := rfl
@[simp] theorem State.setHalf_parityInstr (b : Bank) (a v : Word) : (s.setHalf b a v).parityInstr = s.parityInstr := rfl
@[simp] theorem State.setHalf_parityOperand (b : Bank) (a v : Word) : (s.setHalf b a v).parityOperand = s.parityOperand := rfl
@[simp] theorem State.setHalf_power (b : Bank) (a v : Word) : (s.setHalf b a v).power = s.power := rfl
@[simp] theorem State.setHalf_memOperational (b : Bank) (a v : Word) : (s.setHalf b a v).memOperational = s.memOperational := rfl
@[simp] theorem State.setHalf_rtc (b : Bank) (a v : Word) : (s.setHalf b a v).rtc = s.rtc := rfl
@[simp] theorem State.setHalf_etc (b : Bank) (a v : Word) : (s.setHalf b a v).etc = s.etc := rfl
@[simp] theorem State.setHalf_requests (b : Bank) (a v : Word) : (s.setHalf b a v).requests = s.requests := rfl
@[simp] theorem State.setHalf_replies (b : Bank) (a v : Word) : (s.setHalf b a v).replies = s.replies := rfl
@[simp] theorem State.setHalf_bus (b : Bank) (a v : Word) : (s.setHalf b a v).bus = s.bus := rfl
@[simp] theorem State.setHalf_arrivals (b : Bank) (a v : Word) : (s.setHalf b a v).arrivals = s.arrivals := rfl
@[simp] theorem State.setHalf_draws (b : Bank) (a v : Word) : (s.setHalf b a v).draws = s.draws := rfl
@[simp] theorem State.setHalf_params (b : Bank) (a v : Word) : (s.setHalf b a v).params = s.params := rfl

/-! ### setFull -/

@[simp] theorem State.setFull_regs (b : Bank) (a : Word) (v : Full) : (s.setFull b a v).regs = s.regs := rfl
@[simp] theorem State.setFull_psw (b : Bank) (a : Word) (v : Full) : (s.setFull b a v).psw = s.psw := rfl
@[simp] theorem State.setFull_cpr (b : Bank) (a : Word) (v : Full) : (s.setFull b a v).cpr = s.cpr := rfl
@[simp] theorem State.setFull_apfPending (b : Bank) (a : Word) (v : Full) : (s.setFull b a v).apfPending = s.apfPending := rfl
@[simp] theorem State.setFull_parityInstr (b : Bank) (a : Word) (v : Full) : (s.setFull b a v).parityInstr = s.parityInstr := rfl
@[simp] theorem State.setFull_parityOperand (b : Bank) (a : Word) (v : Full) : (s.setFull b a v).parityOperand = s.parityOperand := rfl
@[simp] theorem State.setFull_power (b : Bank) (a : Word) (v : Full) : (s.setFull b a v).power = s.power := rfl
@[simp] theorem State.setFull_memOperational (b : Bank) (a : Word) (v : Full) : (s.setFull b a v).memOperational = s.memOperational := rfl
@[simp] theorem State.setFull_rtc (b : Bank) (a : Word) (v : Full) : (s.setFull b a v).rtc = s.rtc := rfl
@[simp] theorem State.setFull_etc (b : Bank) (a : Word) (v : Full) : (s.setFull b a v).etc = s.etc := rfl
@[simp] theorem State.setFull_requests (b : Bank) (a : Word) (v : Full) : (s.setFull b a v).requests = s.requests := rfl
@[simp] theorem State.setFull_replies (b : Bank) (a : Word) (v : Full) : (s.setFull b a v).replies = s.replies := rfl
@[simp] theorem State.setFull_bus (b : Bank) (a : Word) (v : Full) : (s.setFull b a v).bus = s.bus := rfl
@[simp] theorem State.setFull_arrivals (b : Bank) (a : Word) (v : Full) : (s.setFull b a v).arrivals = s.arrivals := rfl
@[simp] theorem State.setFull_draws (b : Bank) (a : Word) (v : Full) : (s.setFull b a v).draws = s.draws := rfl
@[simp] theorem State.setFull_params (b : Bank) (a : Word) (v : Full) : (s.setFull b a v).params = s.params := rfl

/-! ### setFpReg -/

@[simp] theorem State.setFpReg_regs (r : Nibble) (v : Full) : (s.setFpReg r v).regs = s.regs := rfl
@[simp] theorem State.setFpReg_psw (r : Nibble) (v : Full) : (s.setFpReg r v).psw = s.psw := rfl
@[simp] theorem State.setFpReg_cpr (r : Nibble) (v : Full) : (s.setFpReg r v).cpr = s.cpr := rfl
@[simp] theorem State.setFpReg_apfPending (r : Nibble) (v : Full) : (s.setFpReg r v).apfPending = s.apfPending := rfl
@[simp] theorem State.setFpReg_parityInstr (r : Nibble) (v : Full) : (s.setFpReg r v).parityInstr = s.parityInstr := rfl
@[simp] theorem State.setFpReg_parityOperand (r : Nibble) (v : Full) : (s.setFpReg r v).parityOperand = s.parityOperand := rfl
@[simp] theorem State.setFpReg_power (r : Nibble) (v : Full) : (s.setFpReg r v).power = s.power := rfl
@[simp] theorem State.setFpReg_memOperational (r : Nibble) (v : Full) : (s.setFpReg r v).memOperational = s.memOperational := rfl
@[simp] theorem State.setFpReg_rtc (r : Nibble) (v : Full) : (s.setFpReg r v).rtc = s.rtc := rfl
@[simp] theorem State.setFpReg_etc (r : Nibble) (v : Full) : (s.setFpReg r v).etc = s.etc := rfl
@[simp] theorem State.setFpReg_requests (r : Nibble) (v : Full) : (s.setFpReg r v).requests = s.requests := rfl
@[simp] theorem State.setFpReg_replies (r : Nibble) (v : Full) : (s.setFpReg r v).replies = s.replies := rfl
@[simp] theorem State.setFpReg_bus (r : Nibble) (v : Full) : (s.setFpReg r v).bus = s.bus := rfl
@[simp] theorem State.setFpReg_arrivals (r : Nibble) (v : Full) : (s.setFpReg r v).arrivals = s.arrivals := rfl
@[simp] theorem State.setFpReg_draws (r : Nibble) (v : Full) : (s.setFpReg r v).draws = s.draws := rfl
@[simp] theorem State.setFpReg_params (r : Nibble) (v : Full) : (s.setFpReg r v).params = s.params := rfl

/-! ### setStatus -/

@[simp] theorem State.setStatus_regs (w : Word) : (s.setStatus w).regs = s.regs := rfl
@[simp] theorem State.setStatus_cpr (w : Word) : (s.setStatus w).cpr = s.cpr := rfl
@[simp] theorem State.setStatus_mem (w : Word) : (s.setStatus w).mem = s.mem := rfl
@[simp] theorem State.setStatus_apfPending (w : Word) : (s.setStatus w).apfPending = s.apfPending := rfl
@[simp] theorem State.setStatus_parityInstr (w : Word) : (s.setStatus w).parityInstr = s.parityInstr := rfl
@[simp] theorem State.setStatus_parityOperand (w : Word) : (s.setStatus w).parityOperand = s.parityOperand := rfl
@[simp] theorem State.setStatus_power (w : Word) : (s.setStatus w).power = s.power := rfl
@[simp] theorem State.setStatus_memOperational (w : Word) : (s.setStatus w).memOperational = s.memOperational := rfl
@[simp] theorem State.setStatus_rtc (w : Word) : (s.setStatus w).rtc = s.rtc := rfl
@[simp] theorem State.setStatus_etc (w : Word) : (s.setStatus w).etc = s.etc := rfl
@[simp] theorem State.setStatus_requests (w : Word) : (s.setStatus w).requests = s.requests := rfl
@[simp] theorem State.setStatus_replies (w : Word) : (s.setStatus w).replies = s.replies := rfl
@[simp] theorem State.setStatus_bus (w : Word) : (s.setStatus w).bus = s.bus := rfl
@[simp] theorem State.setStatus_arrivals (w : Word) : (s.setStatus w).arrivals = s.arrivals := rfl
@[simp] theorem State.setStatus_draws (w : Word) : (s.setStatus w).draws = s.draws := rfl
@[simp] theorem State.setStatus_params (w : Word) : (s.setStatus w).params = s.params := rfl
@[simp] theorem State.setStatus_psw (w : Word) : (s.setStatus w).psw = s.psw.withStatus w := rfl

/-! ### setControl -/

@[simp] theorem State.setControl_regs (b : Byte) : (s.setControl b).regs = s.regs := rfl
@[simp] theorem State.setControl_cpr (b : Byte) : (s.setControl b).cpr = s.cpr := rfl
@[simp] theorem State.setControl_mem (b : Byte) : (s.setControl b).mem = s.mem := rfl
@[simp] theorem State.setControl_apfPending (b : Byte) : (s.setControl b).apfPending = s.apfPending := rfl
@[simp] theorem State.setControl_parityInstr (b : Byte) : (s.setControl b).parityInstr = s.parityInstr := rfl
@[simp] theorem State.setControl_parityOperand (b : Byte) : (s.setControl b).parityOperand = s.parityOperand := rfl
@[simp] theorem State.setControl_power (b : Byte) : (s.setControl b).power = s.power := rfl
@[simp] theorem State.setControl_memOperational (b : Byte) : (s.setControl b).memOperational = s.memOperational := rfl
@[simp] theorem State.setControl_rtc (b : Byte) : (s.setControl b).rtc = s.rtc := rfl
@[simp] theorem State.setControl_etc (b : Byte) : (s.setControl b).etc = s.etc := rfl
@[simp] theorem State.setControl_requests (b : Byte) : (s.setControl b).requests = s.requests := rfl
@[simp] theorem State.setControl_replies (b : Byte) : (s.setControl b).replies = s.replies := rfl
@[simp] theorem State.setControl_bus (b : Byte) : (s.setControl b).bus = s.bus := rfl
@[simp] theorem State.setControl_arrivals (b : Byte) : (s.setControl b).arrivals = s.arrivals := rfl
@[simp] theorem State.setControl_draws (b : Byte) : (s.setControl b).draws = s.draws := rfl
@[simp] theorem State.setControl_params (b : Byte) : (s.setControl b).params = s.params := rfl
@[simp] theorem State.setControl_psw (b : Byte) : (s.setControl b).psw = s.psw.withControl b := rfl

/-! ### setLc -/

@[simp] theorem State.setLc_regs (a : Word) : (s.setLc a).regs = s.regs := rfl
@[simp] theorem State.setLc_cpr (a : Word) : (s.setLc a).cpr = s.cpr := rfl
@[simp] theorem State.setLc_mem (a : Word) : (s.setLc a).mem = s.mem := rfl
@[simp] theorem State.setLc_apfPending (a : Word) : (s.setLc a).apfPending = s.apfPending := rfl
@[simp] theorem State.setLc_parityInstr (a : Word) : (s.setLc a).parityInstr = s.parityInstr := rfl
@[simp] theorem State.setLc_parityOperand (a : Word) : (s.setLc a).parityOperand = s.parityOperand := rfl
@[simp] theorem State.setLc_power (a : Word) : (s.setLc a).power = s.power := rfl
@[simp] theorem State.setLc_memOperational (a : Word) : (s.setLc a).memOperational = s.memOperational := rfl
@[simp] theorem State.setLc_rtc (a : Word) : (s.setLc a).rtc = s.rtc := rfl
@[simp] theorem State.setLc_etc (a : Word) : (s.setLc a).etc = s.etc := rfl
@[simp] theorem State.setLc_requests (a : Word) : (s.setLc a).requests = s.requests := rfl
@[simp] theorem State.setLc_replies (a : Word) : (s.setLc a).replies = s.replies := rfl
@[simp] theorem State.setLc_bus (a : Word) : (s.setLc a).bus = s.bus := rfl
@[simp] theorem State.setLc_arrivals (a : Word) : (s.setLc a).arrivals = s.arrivals := rfl
@[simp] theorem State.setLc_draws (a : Word) : (s.setLc a).draws = s.draws := rfl
@[simp] theorem State.setLc_params (a : Word) : (s.setLc a).params = s.params := rfl
@[simp] theorem State.setLc_psw (a : Word) : (s.setLc a).psw = { s.psw with lc := a } := rfl

/-! ### setCc -/

@[simp] theorem State.setCc_regs (cc : Cc) : (s.setCc cc).regs = s.regs := rfl
@[simp] theorem State.setCc_cpr (cc : Cc) : (s.setCc cc).cpr = s.cpr := rfl
@[simp] theorem State.setCc_mem (cc : Cc) : (s.setCc cc).mem = s.mem := rfl
@[simp] theorem State.setCc_apfPending (cc : Cc) : (s.setCc cc).apfPending = s.apfPending := rfl
@[simp] theorem State.setCc_parityInstr (cc : Cc) : (s.setCc cc).parityInstr = s.parityInstr := rfl
@[simp] theorem State.setCc_parityOperand (cc : Cc) : (s.setCc cc).parityOperand = s.parityOperand := rfl
@[simp] theorem State.setCc_power (cc : Cc) : (s.setCc cc).power = s.power := rfl
@[simp] theorem State.setCc_memOperational (cc : Cc) : (s.setCc cc).memOperational = s.memOperational := rfl
@[simp] theorem State.setCc_rtc (cc : Cc) : (s.setCc cc).rtc = s.rtc := rfl
@[simp] theorem State.setCc_etc (cc : Cc) : (s.setCc cc).etc = s.etc := rfl
@[simp] theorem State.setCc_requests (cc : Cc) : (s.setCc cc).requests = s.requests := rfl
@[simp] theorem State.setCc_replies (cc : Cc) : (s.setCc cc).replies = s.replies := rfl
@[simp] theorem State.setCc_bus (cc : Cc) : (s.setCc cc).bus = s.bus := rfl
@[simp] theorem State.setCc_arrivals (cc : Cc) : (s.setCc cc).arrivals = s.arrivals := rfl
@[simp] theorem State.setCc_draws (cc : Cc) : (s.setCc cc).draws = s.draws := rfl
@[simp] theorem State.setCc_params (cc : Cc) : (s.setCc cc).params = s.params := rfl
@[simp] theorem State.setCc_psw (cc : Cc) : (s.setCc cc).psw = { s.psw with cc := cc } := rfl

/-! ### advance -/

@[simp] theorem State.advance_regs (len : Word) : (s.advance len).regs = s.regs := rfl
@[simp] theorem State.advance_cpr (len : Word) : (s.advance len).cpr = s.cpr := rfl
@[simp] theorem State.advance_mem (len : Word) : (s.advance len).mem = s.mem := rfl
@[simp] theorem State.advance_apfPending (len : Word) : (s.advance len).apfPending = s.apfPending := rfl
@[simp] theorem State.advance_parityInstr (len : Word) : (s.advance len).parityInstr = s.parityInstr := rfl
@[simp] theorem State.advance_parityOperand (len : Word) : (s.advance len).parityOperand = s.parityOperand := rfl
@[simp] theorem State.advance_power (len : Word) : (s.advance len).power = s.power := rfl
@[simp] theorem State.advance_memOperational (len : Word) : (s.advance len).memOperational = s.memOperational := rfl
@[simp] theorem State.advance_rtc (len : Word) : (s.advance len).rtc = s.rtc := rfl
@[simp] theorem State.advance_etc (len : Word) : (s.advance len).etc = s.etc := rfl
@[simp] theorem State.advance_requests (len : Word) : (s.advance len).requests = s.requests := rfl
@[simp] theorem State.advance_replies (len : Word) : (s.advance len).replies = s.replies := rfl
@[simp] theorem State.advance_bus (len : Word) : (s.advance len).bus = s.bus := rfl
@[simp] theorem State.advance_arrivals (len : Word) : (s.advance len).arrivals = s.arrivals := rfl
@[simp] theorem State.advance_draws (len : Word) : (s.advance len).draws = s.draws := rfl
@[simp] theorem State.advance_params (len : Word) : (s.advance len).params = s.params := rfl
@[simp] theorem State.advance_psw (len : Word) : (s.advance len).psw = { s.psw with lc := s.psw.lc + len } := rfl

/-! ### drawn -/

@[simp] theorem State.drawn_regs : (s.drawn).regs = s.regs := rfl
@[simp] theorem State.drawn_psw : (s.drawn).psw = s.psw := rfl
@[simp] theorem State.drawn_cpr : (s.drawn).cpr = s.cpr := rfl
@[simp] theorem State.drawn_mem : (s.drawn).mem = s.mem := rfl
@[simp] theorem State.drawn_apfPending : (s.drawn).apfPending = s.apfPending := rfl
@[simp] theorem State.drawn_parityInstr : (s.drawn).parityInstr = s.parityInstr := rfl
@[simp] theorem State.drawn_parityOperand : (s.drawn).parityOperand = s.parityOperand := rfl
@[simp] theorem State.drawn_power : (s.drawn).power = s.power := rfl
@[simp] theorem State.drawn_memOperational : (s.drawn).memOperational = s.memOperational := rfl
@[simp] theorem State.drawn_rtc : (s.drawn).rtc = s.rtc := rfl
@[simp] theorem State.drawn_etc : (s.drawn).etc = s.etc := rfl
@[simp] theorem State.drawn_requests : (s.drawn).requests = s.requests := rfl
@[simp] theorem State.drawn_replies : (s.drawn).replies = s.replies := rfl
@[simp] theorem State.drawn_bus : (s.drawn).bus = s.bus := rfl
@[simp] theorem State.drawn_arrivals : (s.drawn).arrivals = s.arrivals := rfl
@[simp] theorem State.drawn_draws : (s.drawn).draws = s.draws + 1 := rfl
@[simp] theorem State.drawn_params : (s.drawn).params = s.params := rfl

/-! ### loadPsw -/

@[simp] theorem State.loadPsw_regs (w : Full) : (s.loadPsw w).regs = s.regs := rfl
@[simp] theorem State.loadPsw_cpr (w : Full) : (s.loadPsw w).cpr = s.cpr := rfl
@[simp] theorem State.loadPsw_mem (w : Full) : (s.loadPsw w).mem = s.mem := rfl
@[simp] theorem State.loadPsw_apfPending (w : Full) : (s.loadPsw w).apfPending = s.apfPending := rfl
@[simp] theorem State.loadPsw_parityInstr (w : Full) : (s.loadPsw w).parityInstr = s.parityInstr := rfl
@[simp] theorem State.loadPsw_parityOperand (w : Full) : (s.loadPsw w).parityOperand = s.parityOperand := rfl
@[simp] theorem State.loadPsw_power (w : Full) : (s.loadPsw w).power = s.power := rfl
@[simp] theorem State.loadPsw_memOperational (w : Full) : (s.loadPsw w).memOperational = s.memOperational := rfl
@[simp] theorem State.loadPsw_rtc (w : Full) : (s.loadPsw w).rtc = s.rtc := rfl
@[simp] theorem State.loadPsw_etc (w : Full) : (s.loadPsw w).etc = s.etc := rfl
@[simp] theorem State.loadPsw_requests (w : Full) : (s.loadPsw w).requests = s.requests := rfl
@[simp] theorem State.loadPsw_replies (w : Full) : (s.loadPsw w).replies = s.replies := rfl
@[simp] theorem State.loadPsw_bus (w : Full) : (s.loadPsw w).bus = s.bus := rfl
@[simp] theorem State.loadPsw_arrivals (w : Full) : (s.loadPsw w).arrivals = s.arrivals := rfl
@[simp] theorem State.loadPsw_draws (w : Full) : (s.loadPsw w).draws = s.draws := rfl
@[simp] theorem State.loadPsw_params (w : Full) : (s.loadPsw w).params = s.params := rfl

/-! ### exchange -/

@[simp] theorem State.exchange_regs (old new lc : Word) : (s.exchange old new lc).regs = s.regs := rfl
@[simp] theorem State.exchange_cpr (old new lc : Word) : (s.exchange old new lc).cpr = s.cpr := rfl
@[simp] theorem State.exchange_apfPending (old new lc : Word) : (s.exchange old new lc).apfPending = s.apfPending := rfl
@[simp] theorem State.exchange_parityInstr (old new lc : Word) : (s.exchange old new lc).parityInstr = s.parityInstr := rfl
@[simp] theorem State.exchange_parityOperand (old new lc : Word) : (s.exchange old new lc).parityOperand = s.parityOperand := rfl
@[simp] theorem State.exchange_power (old new lc : Word) : (s.exchange old new lc).power = s.power := rfl
@[simp] theorem State.exchange_memOperational (old new lc : Word) : (s.exchange old new lc).memOperational = s.memOperational := rfl
@[simp] theorem State.exchange_rtc (old new lc : Word) : (s.exchange old new lc).rtc = s.rtc := rfl
@[simp] theorem State.exchange_etc (old new lc : Word) : (s.exchange old new lc).etc = s.etc := rfl
@[simp] theorem State.exchange_requests (old new lc : Word) : (s.exchange old new lc).requests = s.requests := rfl
@[simp] theorem State.exchange_replies (old new lc : Word) : (s.exchange old new lc).replies = s.replies := rfl
@[simp] theorem State.exchange_bus (old new lc : Word) : (s.exchange old new lc).bus = s.bus := rfl
@[simp] theorem State.exchange_arrivals (old new lc : Word) : (s.exchange old new lc).arrivals = s.arrivals := rfl
@[simp] theorem State.exchange_draws (old new lc : Word) : (s.exchange old new lc).draws = s.draws := rfl
@[simp] theorem State.exchange_params (old new lc : Word) : (s.exchange old new lc).params = s.params := rfl

/-! ### immediateEntry -/

@[simp] theorem State.immediateEntry_regs (sp lc : Word) : (s.immediateEntry sp lc).regs = s.regs := rfl
@[simp] theorem State.immediateEntry_cpr (sp lc : Word) : (s.immediateEntry sp lc).cpr = s.cpr := rfl
@[simp] theorem State.immediateEntry_apfPending (sp lc : Word) : (s.immediateEntry sp lc).apfPending = s.apfPending := rfl
@[simp] theorem State.immediateEntry_parityInstr (sp lc : Word) : (s.immediateEntry sp lc).parityInstr = s.parityInstr := rfl
@[simp] theorem State.immediateEntry_parityOperand (sp lc : Word) : (s.immediateEntry sp lc).parityOperand = s.parityOperand := rfl
@[simp] theorem State.immediateEntry_power (sp lc : Word) : (s.immediateEntry sp lc).power = s.power := rfl
@[simp] theorem State.immediateEntry_memOperational (sp lc : Word) : (s.immediateEntry sp lc).memOperational = s.memOperational := rfl
@[simp] theorem State.immediateEntry_rtc (sp lc : Word) : (s.immediateEntry sp lc).rtc = s.rtc := rfl
@[simp] theorem State.immediateEntry_etc (sp lc : Word) : (s.immediateEntry sp lc).etc = s.etc := rfl
@[simp] theorem State.immediateEntry_requests (sp lc : Word) : (s.immediateEntry sp lc).requests = s.requests := rfl
@[simp] theorem State.immediateEntry_replies (sp lc : Word) : (s.immediateEntry sp lc).replies = s.replies := rfl
@[simp] theorem State.immediateEntry_bus (sp lc : Word) : (s.immediateEntry sp lc).bus = s.bus := rfl
@[simp] theorem State.immediateEntry_arrivals (sp lc : Word) : (s.immediateEntry sp lc).arrivals = s.arrivals := rfl
@[simp] theorem State.immediateEntry_draws (sp lc : Word) : (s.immediateEntry sp lc).draws = s.draws := rfl
@[simp] theorem State.immediateEntry_params (sp lc : Word) : (s.immediateEntry sp lc).params = s.params := rfl

/-! ### supervisorCall -/

@[simp] theorem State.supervisorCall_regs (k : Nibble) (p n : Word) : (s.supervisorCall k p n).regs = s.regs := rfl
@[simp] theorem State.supervisorCall_cpr (k : Nibble) (p n : Word) : (s.supervisorCall k p n).cpr = s.cpr := rfl
@[simp] theorem State.supervisorCall_apfPending (k : Nibble) (p n : Word) : (s.supervisorCall k p n).apfPending = s.apfPending := rfl
@[simp] theorem State.supervisorCall_parityInstr (k : Nibble) (p n : Word) : (s.supervisorCall k p n).parityInstr = s.parityInstr := rfl
@[simp] theorem State.supervisorCall_parityOperand (k : Nibble) (p n : Word) : (s.supervisorCall k p n).parityOperand = s.parityOperand := rfl
@[simp] theorem State.supervisorCall_power (k : Nibble) (p n : Word) : (s.supervisorCall k p n).power = s.power := rfl
@[simp] theorem State.supervisorCall_memOperational (k : Nibble) (p n : Word) : (s.supervisorCall k p n).memOperational = s.memOperational := rfl
@[simp] theorem State.supervisorCall_rtc (k : Nibble) (p n : Word) : (s.supervisorCall k p n).rtc = s.rtc := rfl
@[simp] theorem State.supervisorCall_etc (k : Nibble) (p n : Word) : (s.supervisorCall k p n).etc = s.etc := rfl
@[simp] theorem State.supervisorCall_requests (k : Nibble) (p n : Word) : (s.supervisorCall k p n).requests = s.requests := rfl
@[simp] theorem State.supervisorCall_replies (k : Nibble) (p n : Word) : (s.supervisorCall k p n).replies = s.replies := rfl
@[simp] theorem State.supervisorCall_bus (k : Nibble) (p n : Word) : (s.supervisorCall k p n).bus = s.bus := rfl
@[simp] theorem State.supervisorCall_arrivals (k : Nibble) (p n : Word) : (s.supervisorCall k p n).arrivals = s.arrivals := rfl
@[simp] theorem State.supervisorCall_draws (k : Nibble) (p n : Word) : (s.supervisorCall k p n).draws = s.draws := rfl
@[simp] theorem State.supervisorCall_params (k : Nibble) (p n : Word) : (s.supervisorCall k p n).params = s.params := rfl

/-! ### operate -/

@[simp] theorem State.operate_regs (d : Byte) (op : BusOp) : (s.operate d op).regs = s.regs := rfl
@[simp] theorem State.operate_psw (d : Byte) (op : BusOp) : (s.operate d op).psw = s.psw := rfl
@[simp] theorem State.operate_cpr (d : Byte) (op : BusOp) : (s.operate d op).cpr = s.cpr := rfl
@[simp] theorem State.operate_mem (d : Byte) (op : BusOp) : (s.operate d op).mem = s.mem := rfl
@[simp] theorem State.operate_apfPending (d : Byte) (op : BusOp) : (s.operate d op).apfPending = s.apfPending := rfl
@[simp] theorem State.operate_parityInstr (d : Byte) (op : BusOp) : (s.operate d op).parityInstr = s.parityInstr := rfl
@[simp] theorem State.operate_parityOperand (d : Byte) (op : BusOp) : (s.operate d op).parityOperand = s.parityOperand := rfl
@[simp] theorem State.operate_power (d : Byte) (op : BusOp) : (s.operate d op).power = s.power := rfl
@[simp] theorem State.operate_memOperational (d : Byte) (op : BusOp) : (s.operate d op).memOperational = s.memOperational := rfl
@[simp] theorem State.operate_rtc (d : Byte) (op : BusOp) : (s.operate d op).rtc = s.rtc := rfl
@[simp] theorem State.operate_etc (d : Byte) (op : BusOp) : (s.operate d op).etc = s.etc := rfl
@[simp] theorem State.operate_requests (d : Byte) (op : BusOp) : (s.operate d op).requests = s.requests := rfl
@[simp] theorem State.operate_arrivals (d : Byte) (op : BusOp) : (s.operate d op).arrivals = s.arrivals := rfl
@[simp] theorem State.operate_draws (d : Byte) (op : BusOp) : (s.operate d op).draws = s.draws + 1 := rfl
@[simp] theorem State.operate_params (d : Byte) (op : BusOp) : (s.operate d op).params = s.params := rfl

/-! ### acknowledged -/

@[simp] theorem State.acknowledged_regs : (s.acknowledged).regs = s.regs := rfl
@[simp] theorem State.acknowledged_psw : (s.acknowledged).psw = s.psw := rfl
@[simp] theorem State.acknowledged_cpr : (s.acknowledged).cpr = s.cpr := rfl
@[simp] theorem State.acknowledged_mem : (s.acknowledged).mem = s.mem := rfl
@[simp] theorem State.acknowledged_apfPending : (s.acknowledged).apfPending = s.apfPending := rfl
@[simp] theorem State.acknowledged_parityInstr : (s.acknowledged).parityInstr = s.parityInstr := rfl
@[simp] theorem State.acknowledged_parityOperand : (s.acknowledged).parityOperand = s.parityOperand := rfl
@[simp] theorem State.acknowledged_power : (s.acknowledged).power = s.power := rfl
@[simp] theorem State.acknowledged_memOperational : (s.acknowledged).memOperational = s.memOperational := rfl
@[simp] theorem State.acknowledged_rtc : (s.acknowledged).rtc = s.rtc := rfl
@[simp] theorem State.acknowledged_etc : (s.acknowledged).etc = s.etc := rfl
@[simp] theorem State.acknowledged_replies : (s.acknowledged).replies = s.replies := rfl
@[simp] theorem State.acknowledged_bus : (s.acknowledged).bus = s.bus := rfl
@[simp] theorem State.acknowledged_arrivals : (s.acknowledged).arrivals = s.arrivals := rfl
@[simp] theorem State.acknowledged_draws : (s.acknowledged).draws = s.draws := rfl
@[simp] theorem State.acknowledged_params : (s.acknowledged).params = s.params := rfl
@[simp] theorem State.acknowledged_requests : (s.acknowledged).requests = s.requests.tail := rfl

/-! ### loseMemory -/

@[simp] theorem State.loseMemory_regs : (s.loseMemory).regs = s.regs := rfl
@[simp] theorem State.loseMemory_psw : (s.loseMemory).psw = s.psw := rfl
@[simp] theorem State.loseMemory_cpr : (s.loseMemory).cpr = s.cpr := rfl
@[simp] theorem State.loseMemory_mem : (s.loseMemory).mem = s.freeMemory := rfl
@[simp] theorem State.loseMemory_apfPending : (s.loseMemory).apfPending = s.apfPending := rfl
@[simp] theorem State.loseMemory_parityInstr : (s.loseMemory).parityInstr = s.parityInstr := rfl
@[simp] theorem State.loseMemory_parityOperand : (s.loseMemory).parityOperand = s.parityOperand := rfl
@[simp] theorem State.loseMemory_power : (s.loseMemory).power = s.power := rfl
@[simp] theorem State.loseMemory_memOperational : (s.loseMemory).memOperational = s.memOperational := rfl
@[simp] theorem State.loseMemory_rtc : (s.loseMemory).rtc = s.rtc := rfl
@[simp] theorem State.loseMemory_etc : (s.loseMemory).etc = s.etc := rfl
@[simp] theorem State.loseMemory_requests : (s.loseMemory).requests = s.requests := rfl
@[simp] theorem State.loseMemory_replies : (s.loseMemory).replies = s.replies := rfl
@[simp] theorem State.loseMemory_bus : (s.loseMemory).bus = s.bus := rfl
@[simp] theorem State.loseMemory_arrivals : (s.loseMemory).arrivals = s.arrivals := rfl
@[simp] theorem State.loseMemory_draws : (s.loseMemory).draws = s.draws + 1 := rfl
@[simp] theorem State.loseMemory_params : (s.loseMemory).params = s.params := rfl

/-! ### initialised -/

@[simp] theorem State.initialised_cpr : (s.initialised).cpr = cprValue ((s.freeFull 3).setWidth 16) := rfl
@[simp] theorem State.initialised_mem : (s.initialised).mem = s.freeMemory := rfl
@[simp] theorem State.initialised_apfPending : (s.initialised).apfPending = false := rfl
@[simp] theorem State.initialised_parityInstr : (s.initialised).parityInstr = false := rfl
@[simp] theorem State.initialised_parityOperand : (s.initialised).parityOperand = false := rfl
@[simp] theorem State.initialised_power : (s.initialised).power = .running := rfl
@[simp] theorem State.initialised_memOperational : (s.initialised).memOperational = true := rfl
@[simp] theorem State.initialised_rtc : (s.initialised).rtc = s.rtc := rfl
@[simp] theorem State.initialised_etc : (s.initialised).etc = s.etc := rfl
@[simp] theorem State.initialised_requests : (s.initialised).requests = s.requests := rfl
@[simp] theorem State.initialised_replies : (s.initialised).replies = s.replies := rfl
@[simp] theorem State.initialised_bus : (s.initialised).bus = s.bus := rfl
@[simp] theorem State.initialised_arrivals : (s.initialised).arrivals = s.arrivals := rfl
@[simp] theorem State.initialised_draws : (s.initialised).draws = s.draws + 1 := rfl
@[simp] theorem State.initialised_params : (s.initialised).params = s.params := rfl

/-! ### restorePower -/

@[simp] theorem State.restorePower_regs (valid : Bool) : (s.restorePower valid).regs = s.regs := rfl
@[simp] theorem State.restorePower_psw (valid : Bool) : (s.restorePower valid).psw = s.psw := rfl
@[simp] theorem State.restorePower_cpr (valid : Bool) : (s.restorePower valid).cpr = s.cpr := rfl
@[simp] theorem State.restorePower_mem (valid : Bool) : (s.restorePower valid).mem = s.mem := rfl
@[simp] theorem State.restorePower_apfPending (valid : Bool) : (s.restorePower valid).apfPending = s.apfPending := rfl
@[simp] theorem State.restorePower_parityInstr (valid : Bool) : (s.restorePower valid).parityInstr = s.parityInstr :=
    rfl
@[simp] theorem State.restorePower_parityOperand (valid : Bool) : (s.restorePower valid).parityOperand = s.parityOperand :=
    rfl
@[simp] theorem State.restorePower_memOperational (valid : Bool) : (s.restorePower valid).memOperational =
    (valid && !decide (s.power = .powerOff)) := rfl
@[simp] theorem State.restorePower_rtc (valid : Bool) : (s.restorePower valid).rtc = s.rtc := rfl
@[simp] theorem State.restorePower_etc (valid : Bool) : (s.restorePower valid).etc = s.etc := rfl
@[simp] theorem State.restorePower_requests (valid : Bool) : (s.restorePower valid).requests = s.requests := rfl
@[simp] theorem State.restorePower_replies (valid : Bool) : (s.restorePower valid).replies = s.replies := rfl
@[simp] theorem State.restorePower_bus (valid : Bool) : (s.restorePower valid).bus = s.bus := rfl
@[simp] theorem State.restorePower_arrivals (valid : Bool) : (s.restorePower valid).arrivals = s.arrivals := rfl
@[simp] theorem State.restorePower_draws (valid : Bool) : (s.restorePower valid).draws = s.draws := rfl
@[simp] theorem State.restorePower_params (valid : Bool) : (s.restorePower valid).params = s.params := rfl

/-! ### tick -/

@[simp] theorem State.tick_regs : (s.tick).regs = s.regs := rfl
@[simp] theorem State.tick_psw : (s.tick).psw = s.psw := rfl
@[simp] theorem State.tick_cpr : (s.tick).cpr = s.cpr := rfl
@[simp] theorem State.tick_mem : (s.tick).mem = s.mem := rfl
@[simp] theorem State.tick_apfPending : (s.tick).apfPending = s.apfPending := rfl
@[simp] theorem State.tick_parityInstr : (s.tick).parityInstr = s.parityInstr := rfl
@[simp] theorem State.tick_parityOperand : (s.tick).parityOperand = s.parityOperand := rfl
@[simp] theorem State.tick_power : (s.tick).power = s.power := rfl
@[simp] theorem State.tick_memOperational : (s.tick).memOperational = s.memOperational := rfl
@[simp] theorem State.tick_rtc : (s.tick).rtc = (s.rtc + 1) % rtcPeriod := rfl
@[simp] theorem State.tick_etc : (s.tick).etc = s.etc - 1 := rfl
@[simp] theorem State.tick_requests : (s.tick).requests = s.requests := rfl
@[simp] theorem State.tick_replies : (s.tick).replies = s.replies := rfl
@[simp] theorem State.tick_bus : (s.tick).bus = s.bus := rfl
@[simp] theorem State.tick_arrivals : (s.tick).arrivals = s.arrivals := rfl
@[simp] theorem State.tick_draws : (s.tick).draws = s.draws := rfl
@[simp] theorem State.tick_params : (s.tick).params = s.params := rfl

end Sys2Proof.Machine
end

