-- ==== Sys2Proof/Laws/Memory.lean ====
section
/-! SUPPORT. The laws of memory: a read after a write, what a write leaves alone, and the canonical form. -/

namespace Sys2Proof.Machine

/-! ### The list -/

theorem memByte_consCell_of_ne {p q : Nat} (h : q ≠ p) (b : Byte) (m : List Host.Cell) :
    memByte (consCell p b m) q = memByte m q := by
  unfold consCell; split <;> simp [memByte, Ne.symm h]

/-- A write leaves every other address alone. -/
theorem memByte_memWrite_of_ne {p q : Nat} (h : q ≠ p) (m : List Host.Cell) (b : Byte) :
    memByte (memWrite m p b) q = memByte m q := by
  induction m with
  | nil => exact memByte_consCell_of_ne h b []
  | cons c rest ih =>
    obtain ⟨r, v⟩ := c
    simp only [memWrite]
    split
    · exact memByte_consCell_of_ne h b _
    · split
      · next hpr => rw [memByte_consCell_of_ne h, memByte, if_neg (by omega)]
      · simp only [memByte, ih]

theorem memWfFrom_cons {lo p : Nat} {b : Byte} {m : List Host.Cell} :
    memWfFrom lo ((p, b) :: m) = true ↔
      lo ≤ p ∧ p < memBytes ∧ b ≠ unlisted ∧ memWfFrom (p + 1) m = true := by
  simp [memWfFrom, and_assoc]

/-- The canonical form from an address on is one from every lower address on. -/
theorem memWfFrom_mono {lo lo' : Nat} (h : lo' ≤ lo) {m : List Host.Cell} (hm : memWfFrom lo m = true) :
    memWfFrom lo' m = true := by
  cases m with
  | nil => rfl
  | cons c rest =>
    obtain ⟨p, b⟩ := c
    rw [memWfFrom_cons] at hm ⊢
    exact ⟨h.trans hm.1, hm.2⟩

theorem memWfFrom_consCell {lo p : Nat} {m : List Host.Cell} (b : Byte) (hlo : lo ≤ p) (hp : p < memBytes)
    (hm : memWfFrom (p + 1) m = true) : memWfFrom lo (consCell p b m) = true := by
  unfold consCell; split
  · exact memWfFrom_mono (by omega) hm
  · exact memWfFrom_cons.2 ⟨hlo, hp, ‹_›, hm⟩

/-- A write of a byte that exists keeps the canonical form. -/
theorem memWfFrom_memWrite {lo p : Nat} {m : List Host.Cell} (b : Byte) (hlo : lo ≤ p) (hp : p < memBytes)
    (hm : memWfFrom lo m = true) : memWfFrom lo (memWrite m p b) = true := by
  induction m generalizing lo with
  | nil => exact memWfFrom_consCell b hlo hp rfl
  | cons c rest ih =>
    obtain ⟨q, v⟩ := c
    obtain ⟨h1, h2, h3, h4⟩ := memWfFrom_cons.1 hm
    simp only [memWrite]
    split
    · exact memWfFrom_consCell b hlo hp (memWfFrom_cons.2 ⟨by omega, h2, h3, h4⟩)
    · split
      · next hpq => exact memWfFrom_consCell b hlo hp (hpq ▸ h4)
      · exact memWfFrom_cons.2 ⟨h1, h2, h3, ih (by omega) h4⟩

/-- Below its least address a canonical list lists nothing. -/
theorem memByte_of_lt {lo p : Nat} {m : List Host.Cell} (hm : memWfFrom lo m = true) (h : p < lo) :
    memByte m p = unlisted := by
  induction m generalizing lo with
  | nil => rfl
  | cons c rest ih =>
    obtain ⟨q, v⟩ := c
    obtain ⟨h1, -, -, h4⟩ := memWfFrom_cons.1 hm
    rw [memByte, if_neg (by omega)]
    exact ih h4 (by omega)

theorem memByte_consCell_self {p : Nat} {m : List Host.Cell} (b : Byte) (hm : memWfFrom (p + 1) m = true) :
    memByte (consCell p b m) p = b := by
  unfold consCell; split
  · next h => rw [h]; exact memByte_of_lt hm (by omega)
  · simp [memByte]

/-- In the canonical form a read after a write of the same address gives the byte written. -/
theorem memByte_memWrite_self {lo p : Nat} {m : List Host.Cell} (b : Byte) (hm : memWfFrom lo m = true) :
    memByte (memWrite m p b) p = b := by
  induction m generalizing lo with
  | nil => exact memByte_consCell_self b rfl
  | cons c rest ih =>
    obtain ⟨q, v⟩ := c
    obtain ⟨h1, h2, h3, h4⟩ := memWfFrom_cons.1 hm
    simp only [memWrite]
    split
    · exact memByte_consCell_self b (memWfFrom_cons.2 ⟨by omega, h2, h3, h4⟩)
    · split
      · next hpq => exact memByte_consCell_self b (hpq ▸ h4)
      · rw [memByte, if_neg (by omega)]; exact ih h4

/-! ### Bank and address -/

theorem phys_lt (b : Bank) (a : Word) : phys b a < memBytes := by
  have := b.isLt; have := a.isLt; unfold phys memBytes; omega

theorem phys_inj {b b' : Bank} {a a' : Word} (h : phys b a = phys b' a') : b = b' ∧ a = a' := by
  have := a.isLt; have := a'.isLt; unfold phys at h
  exact ⟨BitVec.eq_of_toNat_eq (by omega), BitVec.eq_of_toNat_eq (by omega)⟩

theorem phys_ne {b b' : Bank} {a a' : Word} (h : ¬(b = b' ∧ a = a')) : phys b a ≠ phys b' a' :=
  fun e => h (phys_inj e)

theorem ne_succ (a : Word) : a ≠ a + 1 := by bv_omega

/-! ### The state's memory -/

theorem State.byteAt_setByte_of_ne {s : State} {b b' : Bank} {a a' : Word} (v : Byte) (h : ¬(b' = b ∧ a' = a)) :
    (s.setByte b a v).byteAt b' a' = s.byteAt b' a' := memByte_memWrite_of_ne (phys_ne h) _ _

theorem State.byteAt_setByte_self {s : State} (h : Memory.wf s.mem = true) (b : Bank) (a : Word) (v : Byte) :
    (s.setByte b a v).byteAt b a = v := memByte_memWrite_self v h

/-- A halfword store leaves every other byte alone. -/
theorem State.byteAt_setHalf_of_ne {s : State} {b b' : Bank} {a a' : Word} (v : Word)
    (h : ¬(b' = b ∧ (a' = a ∨ a' = a + 1))) : (s.setHalf b a v).byteAt b' a' = s.byteAt b' a' := by
  unfold State.setHalf
  rw [State.byteAt_setByte_of_ne _ (fun e => h ⟨e.1, .inr e.2⟩),
    State.byteAt_setByte_of_ne _ (fun e => h ⟨e.1, .inl e.2⟩)]

/-- A fullword store leaves every other byte alone. -/
theorem State.byteAt_setFull_of_ne {s : State} {b b' : Bank} {a a' : Word} (v : Full)
    (h : ¬(b' = b ∧ (a' = a ∨ a' = a + 1 ∨ a' = a + 2 ∨ a' = a + 3))) :
    (s.setFull b a v).byteAt b' a' = s.byteAt b' a' := by
  unfold State.setFull
  have e : a + 2 + 1 = a + 3 := by bv_omega
  rw [State.byteAt_setHalf_of_ne _ (fun k => h ⟨k.1, by rw [e] at k; tauto⟩),
    State.byteAt_setHalf_of_ne _ (fun k => h ⟨k.1, by tauto⟩)]

theorem State.wf_setByte {s : State} (h : Memory.wf s.mem = true) (b : Bank) (a : Word) (v : Byte) :
    Memory.wf (s.setByte b a v).mem = true := memWfFrom_memWrite v (Nat.zero_le _) (phys_lt b a) h

theorem State.wf_setHalf {s : State} (h : Memory.wf s.mem = true) (b : Bank) (a v : Word) :
    Memory.wf (s.setHalf b a v).mem = true := State.wf_setByte (State.wf_setByte h _ _ _) _ _ _

theorem State.wf_setFull {s : State} (h : Memory.wf s.mem = true) (b : Bank) (a : Word) (v : Full) :
    Memory.wf (s.setFull b a v).mem = true := State.wf_setHalf (State.wf_setHalf h _ _ _) _ _ _

theorem State.wf_setFpReg {s : State} (h : Memory.wf s.mem = true) (r : Nibble) (v : Full) :
    Memory.wf (s.setFpReg r v).mem = true := State.wf_setFull h _ _ _

/-- A halfword reads back as it was stored. -/
theorem State.halfAt_setHalf_self {s : State} (h : Memory.wf s.mem = true) (b : Bank) (a v : Word) :
    (s.setHalf b a v).halfAt b a = v := by
  unfold State.halfAt
  have e1 : (s.setHalf b a v).byteAt b a = v.extractLsb' 8 8 := by
    unfold State.setHalf
    rw [State.byteAt_setByte_of_ne _ (fun e => ne_succ a e.2), State.byteAt_setByte_self h]
  have e2 : (s.setHalf b a v).byteAt b (a + 1) = v.extractLsb' 0 8 := by
    unfold State.setHalf
    rw [State.byteAt_setByte_self (State.wf_setByte h _ _ _)]
  rw [e1, e2]
  apply BitVec.eq_of_getLsbD_eq
  intro i hi
  simp only [BitVec.getLsbD_append, BitVec.getLsbD_extractLsb']
  by_cases h8 : i < 8
  · simp [h8]
  · simp [h8]
    have : 8 + (i - 8) = i := by omega
    rw [this]; simp; intro; omega

/-- A halfword store leaves a halfword at other addresses alone. -/
theorem State.halfAt_setHalf_of_ne {s : State} {b b' : Bank} {a a' : Word} (v : Word)
    (h : ¬(b' = b ∧ (a' = a ∨ a' = a + 1 ∨ a' + 1 = a))) : (s.setHalf b a v).halfAt b' a' = s.halfAt b' a' := by
  unfold State.halfAt
  rw [State.byteAt_setHalf_of_ne v (fun e => h ⟨e.1, by tauto⟩), State.byteAt_setHalf_of_ne v (fun e => h ⟨e.1, ?_⟩)]
  rcases e.2 with k | k
  · exact .inr (.inr k)
  · exact .inl (by bv_omega)

/-- Memory reads depend on memory alone. -/
theorem State.byteAt_congr {s t : State} (h : s.mem = t.mem) (b : Bank) (a : Word) : s.byteAt b a = t.byteAt b a := by
  simp [State.byteAt, h]

theorem State.halfAt_congr {s t : State} (h : s.mem = t.mem) (b : Bank) (a : Word) : s.halfAt b a = t.halfAt b a := by
  simp [State.halfAt, State.byteAt, h]

theorem State.fullAt_congr {s t : State} (h : s.mem = t.mem) (b : Bank) (a : Word) : s.fullAt b a = t.fullAt b a := by
  simp [State.fullAt, State.halfAt, State.byteAt, h]

/-- Reset's memory is in the canonical form. -/
theorem State.wf_reset : Memory.wf State.reset.mem = true := rfl

end Sys2Proof.Machine
end

