-- ==== Sys2Proof/Laws/Ops.lean ====
section
/-! SUPPORT. One lemma for each shared operation: the guards, the registers, the status word, the exchange. -/

namespace Sys2Proof.Machine

/-! ### Guards and continuations -/

theorem evenAddr_iff (a : Word) : evenAddr a = true ↔ a.toNat % 2 = 0 := by
  simp only [evenAddr, beq_iff_eq, BitVec.getLsbD, Nat.testBit_zero]
  simp

theorem evenReg_iff (r : Nibble) : evenReg r = true ↔ r.toNat % 2 = 0 := by
  revert r; decide

theorem quadReg_iff (r : Nibble) : quadReg r = true ↔ r.toNat % 2 = 0 ∧ r.toNat ≤ 12 := by
  revert r; decide

theorem tripleReg_iff (r : Nibble) : tripleReg r = true ↔ r.toNat ≤ 13 := by
  revert r; decide

theorem pairReg_iff (r : Nibble) : pairReg r = true ↔ r.toNat ≤ 14 := by
  revert r; decide

/-- Going on gives a next state exactly when both parts do. -/
theorem andThen_next {o : Out} {k : State → Out} {t : State} :
    andThen o k = .next t ↔ ∃ u, o = .next u ∧ k u = .next t := by
  cases o <;> simp [andThen]

theorem require_next {ok : Bool} {r : Refusal} {out : Out} {t : State} :
    require ok r out = .next t ↔ ok = true ∧ out = .next t := by
  cases ok <;> simp [require]

theorem require_pos {ok : Bool} {r : Refusal} {out : Out} (h : ok = true) : require ok r out = out := by
  simp [require, h]

theorem require_neg {ok : Bool} {r : Refusal} {out : Out} (h : ok = false) : require ok r out = .refused r := by
  simp [require, h]

/-- An instruction that requires normalised operands goes on with such, else it is refused. -/
theorem requireNorm_next {a b : Full} {out : Out} {t : State} :
    requireNorm a b out = .next t ↔ (normalised a = true ∧ normalised b = true) ∧ out = .next t := by
  rw [requireNorm, require_next, Bool.and_eq_true]

theorem requireNorm_pos {a b : Full} {out : Out} (ha : normalised a = true) (hb : normalised b = true) :
    requireNorm a b out = out := require_pos (by rw [ha, hb]; rfl)

theorem requireNorm_neg {a b : Full} {out : Out} (h : normalised a = false ∨ normalised b = false) :
    requireNorm a b out = .refused .notNormalised := require_neg (by rcases h with h | h <;> simp [h])

theorem even_add_two {a : Word} (h : isEven a) : isEven (a + 2) := by
  unfold isEven at *; rw [BitVec.toNat_add]; simp; omega

/-- A byte access goes on exactly where the byte is memory. -/
theorem State.guardByte_next {s : State} {b : Bank} {a : Word} {out : Out} {t : State} :
    s.guardByte b a out = .next t ↔ s.byteOk b a ∧ out = .next t := require_next

theorem State.guardByte_pos {s : State} {b : Bank} {a : Word} {out : Out} (h : s.byteOk b a) :
    s.guardByte b a out = out := require_pos h

theorem State.guardByte_absent {s : State} {b : Bank} {a : Word} {out : Out} (h : ¬ s.byteOk b a) :
    s.guardByte b a out = .refused .absentMemory := require_neg (Bool.eq_false_iff.2 h)

theorem State.halfPresent_iff {s : State} {b : Bank} {a : Word} :
    s.halfPresent b a = true ↔ s.byteOk b a ∧ s.byteOk b (a + 1) := Bool.and_eq_true_iff

/-- A halfword access goes on exactly where the halfword may be accessed. -/
theorem State.guardHalf_next {s : State} {b : Bank} {a : Word} {out : Out} {t : State} :
    s.guardHalf b a out = .next t ↔ s.halfOk b a ∧ out = .next t := by
  rw [State.guardHalf, require_next, require_next, evenAddr_iff, State.halfPresent_iff]
  exact and_assoc.symm

theorem State.guardHalf_pos {s : State} {b : Bank} {a : Word} {out : Out} (h : s.halfOk b a) :
    s.guardHalf b a out = out := by
  rw [State.guardHalf, require_pos ((evenAddr_iff a).2 h.1), require_pos (State.halfPresent_iff.2 h.2)]

theorem State.guardHalf_odd {s : State} {b : Bank} {a : Word} {out : Out} (h : ¬ isEven a) :
    s.guardHalf b a out = .refused .oddAddress :=
  require_neg (by simpa using fun k => h ((evenAddr_iff a).1 k))

theorem State.guardHalf_absent {s : State} {b : Bank} {a : Word} {out : Out} (h : isEven a)
    (h' : ¬ (s.byteOk b a ∧ s.byteOk b (a + 1))) : s.guardHalf b a out = .refused .absentMemory := by
  rw [State.guardHalf, require_pos ((evenAddr_iff a).2 h)]
  exact require_neg (by simpa using fun k => h' (State.halfPresent_iff.1 k))

theorem State.halvesOk_succ {s : State} {b : Bank} {n : Nat} {a : Word} :
    s.halvesOk b (n + 1) a ↔ s.halfOk b a ∧ s.halvesOk b n (a + 2) := by
  have e : ∀ k, a + 2 * BitVec.ofNat 16 (k + 1) = a + 2 + 2 * BitVec.ofNat 16 k := by
    intro k; rw [BitVec.ofNat_add]; generalize BitVec.ofNat 16 k = z; bv_omega
  constructor
  · intro h
    exact ⟨by simpa using h 0 (by omega), fun k hk => e k ▸ h (k + 1) (by omega)⟩
  · rintro ⟨h0, h⟩ k hk
    cases k with
    | zero => simpa using h0
    | succ k => rw [e]; exact h k (by omega)

/-- An access to several halfwords goes on exactly where all may be accessed. -/
theorem State.guardHalves_next {s : State} {b : Bank} {n : Nat} {a : Word} {out : Out} {t : State} :
    s.guardHalves b n a out = .next t ↔ s.halvesOk b n a ∧ out = .next t := by
  induction n generalizing a with
  | zero => simp [State.guardHalves, State.halvesOk]
  | succ n ih => rw [State.guardHalves, State.guardHalf_next, ih, State.halvesOk_succ, and_assoc]

theorem State.guardHalves_pos {s : State} {b : Bank} {n : Nat} {a : Word} {out : Out} (h : s.halvesOk b n a) :
    s.guardHalves b n a out = out := by
  induction n generalizing a with
  | zero => rfl
  | succ n ih =>
    obtain ⟨h1, h2⟩ := State.halvesOk_succ.1 h
    rw [State.guardHalves, State.guardHalf_pos h1, ih h2]

theorem State.fullOk_iff {s : State} {b : Bank} {a : Word} : s.fullOk b a ↔ s.halvesOk b 2 a := by
  rw [State.halvesOk_succ, State.halvesOk_succ, State.fullOk]
  simp [State.halvesOk]

theorem State.guardFull_next {s : State} {b : Bank} {a : Word} {out : Out} {t : State} :
    s.guardFull b a out = .next t ↔ s.fullOk b a ∧ out = .next t := by
  rw [State.fullOk_iff]; exact State.guardHalves_next

theorem State.guardFull_pos {s : State} {b : Bank} {a : Word} {out : Out} (h : s.fullOk b a) :
    s.guardFull b a out = out := State.guardHalves_pos (State.fullOk_iff.1 h)

/-- The examination of the queue may be made, or PSW bit 6 does not ask for it. -/
theorem State.guardQueue_next {s : State} {out : Out} {t : State} :
    s.guardQueue out = .next t ↔ (s.psw.ctEn = true → s.queueOk) ∧ out = .next t := by
  unfold State.guardQueue
  split
  · rw [State.guardHalf_next, State.guardByte_next, ← and_assoc]
    simp only [*, forall_const]
    rfl
  · simp [*]

theorem State.guardQueue_pos {s : State} {out : Out} (h : s.psw.ctEn = true → s.queueOk) : s.guardQueue out = out := by
  unfold State.guardQueue
  split
  · next hc => rw [State.guardHalf_pos (h hc).1]; exact State.guardByte_pos (h hc).2
  · rfl

/-- A privileged instruction in Protect Mode takes the interrupt, else does what it does. -/
theorem privileged_next {s : State} {out : Out} {t : State} :
    s.privileged out = .next t ↔ s.psw.prot = true ∧ t = s.raiseProtect ∨ s.psw.prot = false ∧ out = .next t := by
  unfold State.privileged
  cases s.psw.prot <;> simp [eq_comm]

theorem privileged_pos {s : State} {out : Out} (h : s.psw.prot = false) : s.privileged out = out := by
  simp [State.privileged, h]

/-! ### General registers -/

theorem State.reg_setReg (s : State) (r r' : Nibble) (v : Word) :
    (s.setReg r v).reg r' = if r' = r then v else s.reg r' := by
  unfold State.reg State.setReg
  by_cases h : r' = r
  · subst h; simp
  · have : r.toNat ≠ r'.toNat := fun e => h (BitVec.eq_of_toNat_eq e.symm)
    simp [h, this]

@[simp] theorem State.reg_setReg_self (s : State) (r : Nibble) (v : Word) : (s.setReg r v).reg r = v := by
  rw [State.reg_setReg, if_pos rfl]

theorem State.reg_setReg_of_ne {s : State} {r r' : Nibble} (v : Word) (h : r' ≠ r) :
    (s.setReg r v).reg r' = s.reg r' := by rw [State.reg_setReg, if_neg h]

/-- A register reads the same in two states with the same registers. -/
theorem State.reg_congr {s t : State} (h : s.regs = t.regs) (r : Nibble) : s.reg r = t.reg r := by
  unfold State.reg; simp only [h]

theorem nibble_ne_add {k : Nibble} (r : Nibble) (h : k ≠ 0) : r ≠ r + k := by
  intro e; apply h; revert e; revert r k; decide

theorem append_halves {n : Nat} (v : BitVec (n + n)) : v.extractLsb' n n ++ v.extractLsb' 0 n = v := by
  apply BitVec.eq_of_getLsbD_eq
  intro i hi
  simp only [BitVec.getLsbD_append, BitVec.getLsbD_extractLsb']
  by_cases h8 : i < n
  · simp [h8]
  · simp [h8, show n + (i - n) = i by omega]; intro; omega

@[simp] theorem State.pair_setPair_self (s : State) (r : Nibble) (v : Full) : (s.setPair r v).pair r = v := by
  unfold State.pair State.setPair
  rw [State.reg_setReg_of_ne _ (nibble_ne_add r (by decide)), State.reg_setReg_self, State.reg_setReg_self]
  exact append_halves (n := 16) v

theorem State.reg_setPair_of_ne {s : State} {r r' : Nibble} (v : Full) (h : r' ≠ r) (h1 : r' ≠ r + 1) :
    (s.setPair r v).reg r' = s.reg r' := by
  unfold State.setPair
  rw [State.reg_setReg_of_ne _ h1, State.reg_setReg_of_ne _ h]

theorem add_add_nibble (r a b : Nibble) : r + a + b = r + (a + b) := BitVec.add_assoc r a b

@[simp] theorem State.quad_setQuad_self (s : State) (r : Nibble) (v : Quad) : (s.setQuad r v).quad r = v := by
  unfold State.quad
  have e2 : (s.setQuad r v).pair (r + 2) = v.extractLsb' 0 32 := by
    unfold State.setQuad; exact State.pair_setPair_self ..
  have e1 : (s.setQuad r v).pair r = v.extractLsb' 32 32 := by
    have h : ∀ k : Nibble, k = 0 ∨ k = 1 →
        (s.setQuad r v).reg (r + k) = (s.setPair r (v.extractLsb' 32 32)).reg (r + k) := by
      intro k hk
      unfold State.setQuad
      refine State.reg_setPair_of_ne _ ?_ ?_
      · clear e2; rcases hk with rfl | rfl <;> revert r <;> decide
      · clear e2; rcases hk with rfl | rfl <;> revert r <;> decide
    have h0 := h 0 (.inl rfl)
    rw [show r + 0 = r by simp] at h0
    have h1 := h 1 (.inr rfl)
    rw [State.pair, h0, h1]
    exact State.pair_setPair_self s r _
  rw [e1, e2]
  exact append_halves (n := 32) v

theorem State.reg_setQuad_of_ne {s : State} {r r' : Nibble} (v : Quad) (h : r' ≠ r) (h1 : r' ≠ r + 1)
    (h2 : r' ≠ r + 2) (h3 : r' ≠ r + 3) : (s.setQuad r v).reg r' = s.reg r' := by
  unfold State.setQuad
  rw [State.reg_setPair_of_ne _ h2 (by rwa [add_add_nibble]), State.reg_setPair_of_ne _ h h1]

/-! ### The status word -/

/-- The status halfword read back after it is loaded. -/
@[simp] theorem Psw.status_withStatus (p : Psw) (w : Word) : (p.withStatus w).status = w := by
  apply BitVec.eq_of_getLsbD_eq
  intro i hi
  unfold Psw.withStatus Psw.status Psw.control Cc.bits
  simp only [BitVec.getLsbD_append, BitVec.getMsbD, BitVec.getLsbD_extractLsb', BitVec.getLsbD_ofBool]
  interval_cases i <;> simp

/-- Loading a PSW's own status changes nothing. -/
@[simp] theorem Psw.withStatus_status (p : Psw) : p.withStatus p.status = p := by
  obtain ⟨b0, b1, b2, b3, b4, b5, b6, b7, pb, ob, ⟨c, v, g, l⟩, lc⟩ := p
  unfold Psw.withStatus Psw.status Psw.control Cc.bits
  simp only [Psw.mk.injEq, Cc.mk.injEq, and_true]
  refine ⟨?_, ?_, ?_, ?_, ?_, ?_, ?_, ?_, ?_, ?_, ?_, ?_, ?_, ?_⟩
  all_goals first
    | (simp only [BitVec.getLsbD_append, BitVec.getMsbD, BitVec.getLsbD_ofBool]; simp)
    | (apply BitVec.eq_of_getLsbD_eq; intro i hi
       simp only [BitVec.getLsbD_append, BitVec.getLsbD_extractLsb', BitVec.getLsbD_ofBool]
       interval_cases i <;> simp)

@[simp] theorem Psw.withStatus_lc (p : Psw) (w : Word) : (p.withStatus w).lc = p.lc := rfl

/-- The status does not hold the Location Counter. -/
@[simp] theorem Psw.status_lc (p : Psw) (a : Word) : ({ p with lc := a } : Psw).status = p.status := rfl

/-- A PSW is its status and its Location Counter. -/
theorem Psw.eq_of_status {p q : Psw} (h : p.status = q.status) (hl : p.lc = q.lc) : p = q := by
  have e : p.withStatus q.status = q.withStatus q.status := by simp only [Psw.withStatus, hl]
  rw [← Psw.withStatus_status p, h, e, Psw.withStatus_status]

/-! ### Interrupts -/

/-- The exchange stores the old PSW at `old` and loads the PSW from `new`. -/
theorem State.exchange_mem (s : State) (old new lc : Word) :
    (s.exchange old new lc).mem = ((s.setHalf 0 old s.psw.status).setHalf 0 (old + 2) lc).mem := rfl

theorem State.wf_exchange {s : State} (h : Memory.wf s.mem = true) (old new lc : Word) :
    Memory.wf (s.exchange old new lc).mem = true := State.wf_setHalf (State.wf_setHalf h _ _ _) _ _ _

theorem State.wf_immediateEntry {s : State} (h : Memory.wf s.mem = true) (sp lc : Word) :
    Memory.wf (s.immediateEntry sp lc).mem = true := State.wf_setHalf (State.wf_setHalf h _ _ _) _ _ _

theorem State.wf_supervisorCall {s : State} (h : Memory.wf s.mem = true) (k : Nibble) (p n : Word) :
    Memory.wf (s.supervisorCall k p n).mem = true :=
  State.wf_setHalf (State.wf_setHalf (State.wf_setHalf h _ _ _) _ _ _) _ _ _

/-- The Service Pointer action enters the routine or is refused. -/
theorem State.serviceAction_next {s t : State} {d : Byte} {lc : Word} (h : s.serviceAction d lc = .next t) :
    evenAddr (s.servicePointer d) = true ∧ t = s.immediateEntry (s.servicePointer d) lc := by
  obtain ⟨he, h⟩ := require_next.1 h
  exact ⟨he, (Host.Outcome.next.inj (State.guardHalves_next.1 h).2).symm⟩

/-- The examination of the queue either changes nothing or raises Channel Termination. -/
theorem State.examineQueue_next {s t : State} (h : s.examineQueue = .next t) : t = s ∨ t = s.raiseChannel := by
  obtain rfl := Host.Outcome.next.inj (State.guardQueue_next.1 h).2
  split <;> simp

/-- The examination of a queue that may be read: Channel Termination exactly where bit 6 is set and the queue waits. -/
theorem State.examineQueue_pos {s : State} (h : s.psw.ctEn = true → s.queueOk) :
    s.examineQueue = .next (if s.psw.ctEn && s.queueNonEmpty then s.raiseChannel else s) := State.guardQueue_pos h

/-- Bytes stored one after another keep the canonical form. -/
theorem wf_foldl_memWrite (l : List (Bank × Word × Byte)) : ∀ m, Memory.wf m = true →
    Memory.wf (l.foldl (fun m c => memWrite m (phys c.1 c.2.1) c.2.2) m) = true := by
  induction l with
  | nil => exact fun _ h => h
  | cons c rest ih => exact fun m h => ih _ (memWfFrom_memWrite _ (Nat.zero_le _) (phys_lt _ _) h)

/-- Arbitrary contents of memory are in the canonical form. -/
theorem State.wf_freeMemory (s : State) : Memory.wf s.freeMemory = true := wf_foldl_memWrite _ _ rfl

end Sys2Proof.Machine
end

