-- ==== Sys2Proof/Laws/Frame.lean ====
section
/-! SUPPORT. The frame `State.Keeps`: what each update of the state changes at most, and how frames combine; then what
the shared endings of the instructions do, in the terms of claims. -/

namespace Sys2Proof.Machine

/-! ### Frames -/

theorem State.Keeps.refl (s : State) (rs : List Nibble) (m : Bank → Word → Prop) : s.Keeps s rs m :=
  ⟨fun _ _ => rfl, fun _ _ _ => rfl, rfl, rfl, rfl, rfl, rfl, rfl, rfl, rfl, rfl, rfl, rfl, rfl, rfl⟩

theorem State.Keeps.trans {s t u : State} {rs : List Nibble} {m : Bank → Word → Prop}
    (h : s.Keeps t rs m) (k : t.Keeps u rs m) : s.Keeps u rs m :=
  ⟨fun r hr => (k.regs r hr).trans (h.regs r hr), fun b a ha => (k.bytes b a ha).trans (h.bytes b a ha),
    k.cpr.trans h.cpr, k.apfPending.trans h.apfPending, k.parityInstr.trans h.parityInstr,
    k.parityOperand.trans h.parityOperand, k.power.trans h.power, k.memOperational.trans h.memOperational,
    k.rtc.trans h.rtc, k.etc.trans h.etc,
    k.requests.trans h.requests, k.replies.trans h.replies, k.bus.trans h.bus, k.arrivals.trans h.arrivals,
    k.params.trans h.params⟩

theorem State.Keeps.mono {s t : State} {rs rs' : List Nibble} {m m' : Bank → Word → Prop} (h : s.Keeps t rs m)
    (hr : ∀ r, r ∈ rs → r ∈ rs') (hm : ∀ b a, m b a → m' b a) : s.Keeps t rs' m' :=
  { h with regs := fun r hn => h.regs r fun k => hn (hr r k), bytes := fun b a hn => h.bytes b a fun k => hn (hm b a k) }

/-- A state that differs from one kept in the PSW and the draws alone is kept as well. -/
theorem State.Keeps.of_eq {s t u : State} {rs : List Nibble} {m : Bank → Word → Prop} (h : s.Keeps t rs m)
    (hr : u.regs = t.regs) (hm : u.mem = t.mem)
    (ho : u = { t with regs := u.regs, mem := u.mem, psw := u.psw, draws := u.draws }) : s.Keeps u rs m := by
  rw [ho]
  exact { h with
    regs := fun r hn => (State.reg_congr hr r).trans (h.regs r hn)
    bytes := fun b a hn => (State.byteAt_congr hm b a).trans (h.bytes b a hn) }

theorem State.Keeps.setReg {s : State} {rs : List Nibble} {m : Bank → Word → Prop} (r : Nibble) (v : Word)
    (h : r ∈ rs) : s.Keeps (s.setReg r v) rs m :=
  { State.Keeps.refl s rs m with regs := fun _ hn => State.reg_setReg_of_ne v fun e => hn (e ▸ h) }

theorem State.Keeps.setPair {s : State} {rs : List Nibble} {m : Bank → Word → Prop} (r : Nibble) (v : Full)
    (h : r ∈ rs) (h1 : r + 1 ∈ rs) : s.Keeps (s.setPair r v) rs m :=
  (State.Keeps.setReg r _ h).trans (State.Keeps.setReg (r + 1) _ h1)

theorem State.Keeps.setQuad {s : State} {rs : List Nibble} {m : Bank → Word → Prop} (r : Nibble) (v : Quad)
    (h : r ∈ rs) (h1 : r + 1 ∈ rs) (h2 : r + 2 ∈ rs) (h3 : r + 3 ∈ rs) : s.Keeps (s.setQuad r v) rs m :=
  (State.Keeps.setPair r _ h h1).trans
    (State.Keeps.setPair (r + 2) _ h2 (by rw [add_add_nibble]; exact h3))

theorem State.Keeps.setByte {s : State} {rs : List Nibble} {m : Bank → Word → Prop} (b : Bank) (a : Word) (v : Byte)
    (h : m b a) : s.Keeps (s.setByte b a v) rs m :=
  { State.Keeps.refl s rs m with
    bytes := fun b' a' hn => State.byteAt_setByte_of_ne v fun e => hn (by rw [e.1, e.2]; exact h) }

theorem State.Keeps.setHalf {s : State} {rs : List Nibble} {m : Bank → Word → Prop} (b : Bank) (a v : Word)
    (h : m b a) (h1 : m b (a + 1)) : s.Keeps (s.setHalf b a v) rs m :=
  (State.Keeps.setByte b a _ h).trans (State.Keeps.setByte b (a + 1) _ h1)

theorem State.Keeps.setFull {s : State} {rs : List Nibble} {m : Bank → Word → Prop} (b : Bank) (a : Word) (v : Full)
    (h : m b a) (h1 : m b (a + 1)) (h2 : m b (a + 2)) (h3 : m b (a + 3)) : s.Keeps (s.setFull b a v) rs m :=
  (State.Keeps.setHalf b a _ h h1).trans
    (State.Keeps.setHalf b (a + 2) _ h2 (by rw [show a + 2 + 1 = a + 3 by bv_omega]; exact h3))

/-- An address `k` above another lies in the bytes from it on. -/
theorem span_add (b : Bank) (a k : Word) (n : Nat) (h : k.toNat < n) : span b a n b (a + k) :=
  ⟨rfl, by rw [show a + k - a = k by bv_omega]; exact h⟩

theorem span_self (b : Bank) (a : Word) {n : Nat} (h : 0 < n) : span b a n b a :=
  ⟨rfl, by simpa using h⟩

theorem State.Keeps.storeHalf {s : State} {rs : List Nibble} (b : Bank) (a v : Word) :
    s.Keeps (s.setHalf b a v) rs (span b a 2) :=
  State.Keeps.setHalf b a v (span_self b a (by decide)) (span_add b a 1 2 (by decide))

theorem State.Keeps.storeFull {s : State} {rs : List Nibble} (b : Bank) (a : Word) (v : Full) :
    s.Keeps (s.setFull b a v) rs (span b a 4) :=
  State.Keeps.setFull b a v (span_self b a (by decide)) (span_add b a 1 4 (by decide)) (span_add b a 2 4 (by decide))
    (span_add b a 3 4 (by decide))

/-! ### Stored values -/

theorem State.fullAt_setFull_self {s : State} (h : Memory.wf s.mem = true) (b : Bank) (a : Word) (v : Full) :
    (s.setFull b a v).fullAt b a = v := by
  unfold State.fullAt State.setFull
  rw [State.halfAt_setHalf_self (State.wf_setHalf h _ _ _), State.halfAt_setHalf_of_ne, State.halfAt_setHalf_self h]
  · exact append_halves (n := 16) v
  · rintro ⟨-, k⟩; bv_omega

theorem fpAddr_eq (r : Nibble) : fpAddr r = 2 * r.setWidth 16 := by
  unfold fpAddr; revert r; decide

theorem State.fpReg_setFpReg_self {s : State} (h : Memory.wf s.mem = true) (r : Nibble) (v : Full) :
    (s.setFpReg r v).fpReg r = v := State.fullAt_setFull_self h _ _ _

/-! ### Exchanges -/

/-- The exchange between two PSW locations that do not overlap. -/
theorem State.swapped_exchange {s : State} (h : Memory.wf s.mem = true) (old new lc : Word)
    (h1 : (new - old).toNat = 4) : s.swapped (s.exchange old new lc) s.psw.status lc old new := by
  have hn : ∀ k : Word, k = 0 ∨ k = 2 →
      ((s.setHalf 0 old s.psw.status).setHalf 0 (old + 2) lc).halfAt 0 (new + k) = s.halfAt 0 (new + k) := by
    intro k hk
    rw [State.halfAt_setHalf_of_ne, State.halfAt_setHalf_of_ne]
    · rintro ⟨-, e⟩; rcases hk with rfl | rfl <;> bv_omega
    · rintro ⟨-, e⟩; rcases hk with rfl | rfl <;> bv_omega
  have hs : ((s.exchange old new lc).psw).status =
      ((s.setHalf 0 old s.psw.status).setHalf 0 (old + 2) lc).halfAt 0 new := by
    simp [State.exchange]
  have hl : ((s.exchange old new lc).psw).lc =
      ((s.setHalf 0 old s.psw.status).setHalf 0 (old + 2) lc).halfAt 0 (new + 2) := by
    simp [State.exchange]
  refine ⟨?_, ?_, ?_, ?_, ?_⟩
  · rw [State.halfAt_congr (State.exchange_mem ..), State.halfAt_setHalf_of_ne, State.halfAt_setHalf_self h]
    rintro ⟨-, e⟩; bv_omega
  · rw [State.halfAt_congr (State.exchange_mem ..), State.halfAt_setHalf_self (State.wf_setHalf h _ _ _)]
  · rw [hs]; have := hn 0 (.inl rfl); rwa [show new + 0 = new by bv_omega] at this
  · rw [hl]; exact hn 2 (.inr rfl)
  · refine ((State.Keeps.setHalf (s := s) 0 old s.psw.status (span_self 0 old (by decide))
      (span_add 0 old 1 4 (by decide))).trans (State.Keeps.setHalf 0 (old + 2) lc (span_add 0 old 2 4 (by decide))
        (by rw [show old + 2 + 1 = old + 3 by bv_omega]; exact span_add 0 old 3 4 (by decide)))).of_eq rfl rfl rfl

/-! ### The shared endings of the instructions -/

/-- A register written, the Condition Code set, a draw spent, then the next instruction. -/
theorem State.putsHalf_drawn {s : State} {len : Word} {r : Nibble} {v : Word} {cc : Cc} {flags : Cc → Prop}
    (h : flags cc) : s.putsHalf (((s.setReg r v).setCc cc).drawn.advance len) len r v flags :=
  ⟨State.reg_setReg_self s r v, h, rfl,
    (State.Keeps.setReg r v (List.mem_singleton.2 rfl)).of_eq rfl rfl rfl⟩

/-- A register written, the Condition Code set, then the next instruction. -/
theorem State.putsHalf_set {s : State} {len : Word} {r : Nibble} {v : Word} {cc : Cc} {flags : Cc → Prop}
    (h : flags cc) : s.putsHalf (((s.setReg r v).setCc cc).advance len) len r v flags :=
  ⟨State.reg_setReg_self s r v, h, rfl,
    (State.Keeps.setReg r v (List.mem_singleton.2 rfl)).of_eq rfl rfl rfl⟩

/-- A register written, the Condition Code kept, then the next instruction. -/
theorem State.putsHalf_kept {s : State} {len : Word} {r : Nibble} {v : Word} :
    s.putsHalf ((s.setReg r v).advance len) len r v s.ccKept :=
  ⟨State.reg_setReg_self s r v, rfl, rfl, (State.Keeps.setReg r v (List.mem_singleton.2 rfl)).of_eq rfl rfl rfl⟩

theorem State.keeps_pair (s : State) (r : Nibble) (v : Full) (m : Bank → Word → Prop) :
    s.Keeps (s.setPair r v) [r, r + 1] m := State.Keeps.setPair r v (by simp) (by simp)

theorem State.keeps_quad (s : State) (r : Nibble) (v : Quad) (m : Bank → Word → Prop) :
    s.Keeps (s.setQuad r v) [r, r + 1, r + 2, r + 3] m :=
  State.Keeps.setQuad r v (by simp) (by simp) (by simp) (by simp)

theorem State.putsPair_drawn {s : State} {len : Word} {r : Nibble} {v : Full} {cc : Cc} {flags : Cc → Prop}
    (h : flags cc) : s.putsPair (((s.setPair r v).setCc cc).drawn.advance len) len r v flags :=
  ⟨State.pair_setPair_self s r v, h, rfl, (State.keeps_pair s r v _).of_eq rfl rfl rfl⟩

theorem State.putsPair_set {s : State} {len : Word} {r : Nibble} {v : Full} {cc : Cc} {flags : Cc → Prop}
    (h : flags cc) : s.putsPair (((s.setPair r v).setCc cc).advance len) len r v flags :=
  ⟨State.pair_setPair_self s r v, h, rfl, (State.keeps_pair s r v _).of_eq rfl rfl rfl⟩

theorem State.putsPair_kept {s : State} {len : Word} {r : Nibble} {v : Full} :
    s.putsPair ((s.setPair r v).advance len) len r v s.ccKept :=
  ⟨State.pair_setPair_self s r v, rfl, rfl, (State.keeps_pair s r v _).of_eq rfl rfl rfl⟩

theorem State.putsQuad_drawn {s : State} {len : Word} {r : Nibble} {v : Quad} {cc : Cc} {flags : Cc → Prop}
    (h : flags cc) : s.putsQuad (((s.setQuad r v).setCc cc).drawn.advance len) len r v flags :=
  ⟨State.quad_setQuad_self s r v, h, rfl, (State.keeps_quad s r v _).of_eq rfl rfl rfl⟩

theorem State.putsQuad_kept {s : State} {len : Word} {r : Nibble} {v : Quad} :
    s.putsQuad ((s.setQuad r v).advance len) len r v s.ccKept :=
  ⟨State.quad_setQuad_self s r v, rfl, rfl, (State.keeps_quad s r v _).of_eq rfl rfl rfl⟩

/-- The Condition Code set, a draw spent, then the next instruction. -/
theorem State.setsCc_drawn {s : State} {len : Word} {cc : Cc} {flags : Cc → Prop} (h : flags cc) :
    s.setsCc ((s.setCc cc).drawn.advance len) len flags := ⟨h, rfl, (State.Keeps.refl s _ _).of_eq rfl rfl rfl⟩

/-- The Condition Code set, then the next instruction. -/
theorem State.setsCc_set {s : State} {len : Word} {cc : Cc} {flags : Cc → Prop} (h : flags cc) :
    s.setsCc ((s.setCc cc).advance len) len flags := ⟨h, rfl, (State.Keeps.refl s _ _).of_eq rfl rfl rfl⟩

/-- The end of a floating-point instruction with an ordinary result. -/
theorem State.putsFloat_finish {s : State} {len : Word} {r : Nibble} {o : FpOutcome} {w : Full}
    {p : Full → Prop} {flags : Cc → Prop} (h : Memory.wf s.mem = true) (hs : o.store = some w)
    (hf : o.fault = false) (hp : p w) (hc : flags o.cc) : s.putsFloat (finishFloat len r o s) len r p flags := by
  have e : finishFloat len r o s = (((s.setFpReg r w).setCc o.cc).drawn.advance len) := by
    simp only [finishFloat, hs, hf, Bool.false_and, Bool.false_eq_true, if_false]
  rw [e]
  refine ⟨?_, hc, rfl, ?_⟩
  · have := State.fpReg_setFpReg_self h r w
    rw [← this] at hp; exact hp
  · rw [← fpAddr_eq]
    exact (State.Keeps.storeFull (s := s) (rs := []) 0 (fpAddr r) w).of_eq rfl rfl rfl

/-- The end of a floating-point instruction with exponent overflow or underflow. -/
theorem State.floatFaults_finish {s : State} {len : Word} {r : Nibble} {o : FpOutcome} {w : Full}
    {flags : Cc → Prop} (h : Memory.wf s.mem = true) (hs : o.store = some w) (hf : o.fault = true) (hc : flags o.cc) :
    s.floatFaults (finishFloat len r o s) len r w flags := by
  have e : finishFloat len r o s = (let u := (s.setFpReg r w).setCc o.cc
      if s.psw.fpfEn then u.drawn.raiseFloat (s.nextLc len) else u.drawn.advance len) := by
    simp only [finishFloat, hs, hf, Bool.true_and]
  have hk := State.Keeps.storeFull (s := s) (rs := []) 0 (fpAddr r) w
  refine ⟨((s.setFpReg r w).setCc o.cc).drawn, ?_, hc, rfl, ?_, ?_, ?_⟩
  · exact State.fpReg_setFpReg_self h r w
  · rw [← fpAddr_eq]; exact hk.of_eq rfl rfl rfl
  · intro he
    rw [e]; simp only [he, if_true]
    exact State.swapped_exchange (s := ((s.setFpReg r w).setCc o.cc).drawn) (State.wf_setFull h _ _ _) 0x0028 0x002C _
      (by decide)
  · intro he
    rw [e]; simp only [he, Bool.false_eq_true, if_false]
    exact ⟨rfl, (State.Keeps.refl _ _ _).of_eq rfl rfl rfl⟩

end Sys2Proof.Machine
end

