-- ==== Sys2Proof/Laws/Transfer.lean ====
section
/-! SUPPORT. What the operations that move data do: a read of a device, LM and STM, the list additions, and the block
transfers; then the entry of a channel's pointer and the sequences of the modes. -/

namespace Sys2Proof.Machine

theorem mem_registersFrom (r1 r : Nibble) : r ∈ registersFrom r1 ↔ r1.toNat ≤ r.toNat := by
  revert r1 r; decide

/-! ### Single reads of a device -/

/-- Everything a read of one byte or halfword can do: it stores the answer, a draw, or nothing (log 49). -/
theorem inputData_next {len : Word} {d : Byte} {op : BusOp} {data : Word} {put : Word → State → Out} {s t : State} :
    inputData len d op data put s = .next t ↔ ∃ u, t = (u.setCc (s.onlyV (s.reply d).timeout)).advance len ∧
      ((s.reply d).timeout = false → put data (s.operate d op) = .next u) ∧
      ((s.reply d).timeout = true → s.params.timeoutDraws = true → put s.timeoutData (s.operate d op) = .next u) ∧
      ((s.reply d).timeout = true → s.params.timeoutDraws = false → u = s.operate d op) := by
  rw [inputData, andThen_next]
  refine exists_congr fun u => ?_
  rw [and_comm, Host.Outcome.next.injEq, eq_comm (a := t)]
  refine and_congr_right fun _ => ?_
  cases (s.reply d).timeout <;> cases s.params.timeoutDraws <;> simp [eq_comm]

/-! ### LM -/

/-- Only registers change. -/
theorem loadMany_same (b : Bank) : ∀ (n : Nat) (r : Nibble) (a : Word) (s : State),
    loadMany b n r a s = { s with regs := (loadMany b n r a s).regs }
  | 0, _, _, _ => rfl
  | n + 1, r, a, s => by
    show loadMany b n (r + 1) (a + 2) _ = _
    conv_lhs => rw [loadMany_same b n (r + 1) (a + 2)]
    rfl

/-- Only registers from the first one on change. -/
theorem loadMany_keeps (b : Bank) : ∀ (n : Nat) (r : Nibble) (a : Word) (s : State) (rs : List Nibble),
    n + r.toNat ≤ 16 → (∀ q : Nibble, r.toNat ≤ q.toNat → q ∈ rs) → s.Keeps (loadMany b n r a s) rs nowhere
  | 0, _, _, s, _, _, _ => State.Keeps.refl s _ _
  | n + 1, r, a, s, rs, hn, h => by
    refine State.Keeps.trans (t := s.setReg r (s.halfAt b a)) (State.Keeps.setReg r _ (h r le_rfl)) ?_
    rcases Nat.lt_or_ge r.toNat 15 with h1 | h1
    · have e : (r + 1).toNat = r.toNat + 1 := by bv_omega
      exact loadMany_keeps b n (r + 1) (a + 2) _ rs (by omega) fun q hq => h q (by omega)
    · obtain rfl : n = 0 := by omega
      exact State.Keeps.refl _ _ _

/-- A register loaded holds the halfword of its place. -/
theorem loadMany_reg (b : Bank) : ∀ (n : Nat) (r : Nibble) (a : Word) (s : State) (q : Nibble),
    n + r.toNat ≤ 16 → r.toNat ≤ q.toNat → q.toNat < r.toNat + n →
    (loadMany b n r a s).reg q = s.halfAt b (a + 2 * (q - r).setWidth 16)
  | 0, _, _, _, _, _, _, _ => by omega
  | n + 1, r, a, s, q, hn, h, h' => by
    show (loadMany b n (r + 1) (a + 2) _).reg q = _
    by_cases e : q = r
    · subst e
      have : (loadMany b n (q + 1) (a + 2) (s.setReg q (s.halfAt b a))).reg q =
          (s.setReg q (s.halfAt b a)).reg q := by
        rcases Nat.lt_or_ge q.toNat 15 with h1 | h1
        · have e : (q + 1).toNat = q.toNat + 1 := by bv_omega
          exact (loadMany_keeps b n (q + 1) (a + 2) _ (registersFrom (q + 1)) (by omega)
            fun p hp => (mem_registersFrom _ _).2 hp).regs q
              fun k => by have := (mem_registersFrom _ _).1 k; omega
        · obtain rfl : n = 0 := by omega
          rfl
      rw [this, State.reg_setReg_self]
      congr 1; simp
    · have hlt : r.toNat < q.toNat := by
        rcases Nat.lt_or_ge r.toNat q.toNat with k | k
        · exact k
        · exact absurd (BitVec.eq_of_toNat_eq (by omega)) e
      have e1 : (r + 1).toNat = r.toNat + 1 := by bv_omega
      rw [loadMany_reg b n (r + 1) (a + 2) _ q (by omega) (by omega) (by omega), State.halfAt_congr (t := s) (by rfl)]
      congr 1
      bv_omega

/-! ### STM -/

/-- Only memory changes. -/
theorem storeMany_same (b : Bank) : ∀ (n : Nat) (r : Nibble) (a : Word) (s : State),
    storeMany b n r a s = { s with mem := (storeMany b n r a s).mem }
  | 0, _, _, _ => rfl
  | n + 1, r, a, s => by
    show storeMany b n (r + 1) (a + 2) _ = _
    conv_lhs => rw [storeMany_same b n (r + 1) (a + 2)]
    rfl

/-- Only the bytes stored to change. -/
theorem storeMany_keeps (b : Bank) : ∀ (n : Nat) (r : Nibble) (a : Word) (s : State) (m : Bank → Word → Prop),
    n + r.toNat ≤ 16 → (∀ b' a', span b a (2 * n) b' a' → m b' a') → s.Keeps (storeMany b n r a s) [] m
  | 0, _, _, s, _, _, _ => State.Keeps.refl s _ _
  | n + 1, r, a, s, m, hn, h => by
    refine State.Keeps.trans (t := s.setHalf b a (s.reg r)) (State.Keeps.setHalf b a _
      (h _ _ (span_self b a (by omega))) (h _ _ (span_add b a 1 _ (by show 1 < _; omega)))) ?_
    rcases Nat.lt_or_ge r.toNat 15 with h1 | h1
    · have e : (r + 1).toNat = r.toNat + 1 := by bv_omega
      refine storeMany_keeps b n (r + 1) (a + 2) _ m (by omega) fun b' a' k => h b' a' ⟨k.1, ?_⟩
      have := k.2; bv_omega
    · obtain rfl : n = 0 := by omega
      exact State.Keeps.refl _ _ _

theorem wf_storeMany (b : Bank) : ∀ (n : Nat) (r : Nibble) (a : Word) (s : State), Memory.wf s.mem = true →
    Memory.wf (storeMany b n r a s).mem = true
  | 0, _, _, _, h => h
  | n + 1, r, a, _, h => wf_storeMany b n (r + 1) (a + 2) _ (State.wf_setHalf h _ _ _)

/-- The halfword of a register's place holds the register. -/
theorem storeMany_halfAt (b : Bank) : ∀ (n : Nat) (r : Nibble) (a : Word) (s : State) (q : Nibble),
    Memory.wf s.mem = true → n + r.toNat ≤ 16 → r.toNat ≤ q.toNat → q.toNat < r.toNat + n →
    (storeMany b n r a s).halfAt b (a + 2 * (q - r).setWidth 16) = s.reg q
  | 0, _, _, _, _, _, _, _, _ => by omega
  | n + 1, r, a, s, q, hm, hn, h, h' => by
    show (storeMany b n (r + 1) (a + 2) _).halfAt _ _ = _
    by_cases e : q = r
    · subst e
      have e0 : a + 2 * (q - q).setWidth 16 = a := by simp
      rw [e0]
      have key : ∀ c : Word, c = 0 ∨ c = 1 →
          (storeMany b n (q + 1) (a + 2) (s.setHalf b a (s.reg q))).byteAt b (a + c) =
            (s.setHalf b a (s.reg q)).byteAt b (a + c) := by
        intro c hc
        rcases Nat.lt_or_ge q.toNat 15 with h1 | h1
        · have e : (q + 1).toNat = q.toNat + 1 := by bv_omega
          refine (storeMany_keeps b n (q + 1) (a + 2) _ (span b (a + 2) (2 * n)) (by omega)
            fun _ _ k => k).bytes _ _ ?_
          rintro ⟨-, k⟩
          have hq := q.isLt
          rcases hc with rfl | rfl <;> bv_omega
        · obtain rfl : n = 0 := by omega
          rfl
      have k0 := key 0 (.inl rfl)
      have k1 := key 1 (.inr rfl)
      rw [show a + 0 = a by simp] at k0
      rw [State.halfAt, k0, k1]
      exact State.halfAt_setHalf_self hm _ _ _
    · have hlt : r.toNat < q.toNat := by
        rcases Nat.lt_or_ge r.toNat q.toNat with k | k
        · exact k
        · exact absurd (BitVec.eq_of_toNat_eq (by omega)) e
      have e1 : (r + 1).toNat = r.toNat + 1 := by bv_omega
      have := storeMany_halfAt b n (r + 1) (a + 2) (s.setHalf b a (s.reg r)) q (State.wf_setHalf hm _ _ _)
        (by omega) (by omega) (by omega)
      have this : _ = s.reg q := this
      rw [← this]
      congr 1
      bv_omega

/-! ### Lists and blocks keep the canonical form -/

/-- The accesses to a header go on exactly where they may be made. -/
theorem State.guardHeader_next {s : State} {b : Bank} {a p : Word} {out : Out} {t : State} :
    s.guardHeader b a p out = .next t ↔ s.headerOk b a p ∧ out = .next t := by
  rw [State.guardHeader, require_next, evenAddr_iff, State.guardByte_next, State.guardByte_next, State.guardByte_next]
  simp only [State.headerOk, isEven, and_assoc]

theorem consistent_next {n u p : Byte} {o : Out} {t : State} :
    consistent n u p o = .next t ↔ (u.toNat ≤ n.toNat ∧ p.toNat < n.toNat) ∧ o = .next t := by
  rw [consistent, require_next, decide_eq_true_iff]

theorem wf_addTop {s t : State} {b : Bank} {a v : Word} (hm : Memory.wf s.mem = true)
    (h : s.addTop b a v = .next t) : Memory.wf t.mem = true := by
  obtain rfl := Host.Outcome.next.inj (State.guardHalf_next.1 (consistent_next.1 h).2).2
  exact State.wf_setHalf (State.wf_setByte (State.wf_setByte hm _ _ _) _ _ _) _ _ _

theorem wf_addBottom {s t : State} {b : Bank} {a v : Word} (hm : Memory.wf s.mem = true)
    (h : s.addBottom b a v = .next t) : Memory.wf t.mem = true := by
  obtain rfl := Host.Outcome.next.inj (State.guardHalf_next.1 (consistent_next.1 h).2).2
  exact State.wf_setByte (State.wf_setByte (State.wf_setHalf hm _ _ _) _ _ _) _ _ _

/-- Read Block: of a state that it ends in, memory stays canonical, requests and the CPR are kept. -/
theorem readBlock_next (d : Byte) : ∀ (k : Nat) (n : Word) (s t : State), readBlock d k n s = .next t →
    (Memory.wf s.mem = true → Memory.wf t.mem = true) ∧
      t = { s with mem := t.mem, psw := { s.psw with cc := t.psw.cc }, replies := t.replies, bus := t.bus,
                   draws := t.draws }
  | 0, _, s, t, h => by
    obtain rfl := Host.Outcome.next.inj h
    exact ⟨fun h => h, rfl⟩
  | k + 1, n, s, t, h => by
    simp only [readBlock] at h
    split at h
    · obtain rfl := Host.Outcome.next.inj h; exact ⟨fun h => h, rfl⟩
    split at h
    · obtain rfl := Host.Outcome.next.inj h; exact ⟨fun h => h, rfl⟩
    obtain ⟨h1, h2⟩ := readBlock_next d k _ _ _ (State.guardByte_next.1 h).2
    exact ⟨fun hm => h1 (State.wf_setByte (s := s) hm _ _ _), by rw [h2]; rfl⟩

/-- Write Block: of a state that it ends in, memory, requests and the CPR are kept. -/
theorem writeBlock_next (d : Byte) : ∀ (k : Nat) (n : Word) (s t : State), writeBlock d k n s = .next t →
    t = { s with psw := { s.psw with cc := t.psw.cc }, replies := t.replies, bus := t.bus, draws := t.draws }
  | 0, _, s, t, h => by
    obtain rfl := Host.Outcome.next.inj h
    rfl
  | k + 1, n, s, t, h => by
    simp only [writeBlock] at h
    replace h := (State.guardByte_next.1 h).2
    split at h
    · obtain rfl := Host.Outcome.next.inj h; rfl
    split at h
    · obtain rfl := Host.Outcome.next.inj h; rfl
    have h2 := writeBlock_next d k _ _ _ h
    rw [h2]; rfl

/-- Autoload: of a state that it ends in, memory stays canonical, requests and the CPR are kept. -/
theorem autoload_next (d : Byte) : ∀ (k : Nat) (n : Word) (s t : State), autoload d k n s = .next t →
    (Memory.wf s.mem = true → Memory.wf t.mem = true) ∧
      t = { s with mem := t.mem, psw := { s.psw with cc := t.psw.cc }, replies := t.replies, bus := t.bus,
                   draws := t.draws }
  | k, n, s, t, h => by
    rw [autoload.eq_def] at h
    simp only at h
    split at h
    · obtain rfl := Host.Outcome.next.inj h; exact ⟨fun h => h, rfl⟩
    split at h
    · obtain rfl := Host.Outcome.next.inj h; exact ⟨fun h => h, rfl⟩
    replace h := (State.guardByte_next.1 h).2
    cases k with
    | zero =>
      obtain rfl := Host.Outcome.next.inj h
      exact ⟨fun hm => State.wf_setByte (s := s) hm _ _ _, rfl⟩
    | succ k =>
      obtain ⟨h1, h2⟩ := autoload_next d k _ _ _ h
      exact ⟨fun hm => h1 (State.wf_setByte (s := s) hm _ _ _), by rw [h2]; rfl⟩

/-- Past the leader only the device's answers, the operations performed and the draws have changed. -/
theorem State.afterLeader_eq (s : State) (d : Byte) : s.afterLeader d =
    { s with replies := (s.afterLeader d).replies, draws := (s.afterLeader d).draws
             bus := List.replicate (leader d s.replies).length (.readByte d) ++ s.bus } := by
  simp only [State.afterLeader]
  split <;> rfl

/-! ### The queue and the modes -/

/-- A channel's pointer in a processor that runs: into a full queue the overflow, else an addition to the list. -/
theorem State.terminateChannel_next {s t : State} {p : Word} {e : QueueEnd} (hr : s.power = .running)
    (h : s.terminateChannel p e = .next t) : s.halfOk 0 s.params.qptrLoc ∧
      (t = (s.setHalf 0 0x008A p).raiseOverflow ∨ s.addTop 0 s.queueAddr p = .next t ∨
        s.addBottom 0 s.queueAddr p = .next t) := by
  rw [State.terminateChannel, if_pos hr] at h
  obtain ⟨hq, h⟩ := State.guardHalf_next.1 h
  refine ⟨hq, ?_⟩
  replace h := (State.guardByte_next.1 (State.guardByte_next.1 h).2).2
  by_cases hu : s.byteAt 0 (s.queueAddr + 1) = s.byteAt 0 s.queueAddr
  · exact .inl (Host.Outcome.next.inj ((if_pos hu).symm.trans h)).symm
  · replace h := (if_neg hu).symm.trans h
    cases e with
    | top => exact .inr (.inl (State.guardHeader_next.1 h).2)
    | bottom => exact .inr (.inr (State.guardHeader_next.1 h).2)

theorem wf_terminateChannel {s t : State} {p : Word} {e : QueueEnd} (hm : Memory.wf s.mem = true)
    (h : s.terminateChannel p e = .next t) : Memory.wf t.mem = true := by
  by_cases hr : s.power = .running
  · rcases (State.terminateChannel_next hr h).2 with rfl | h | h
    · exact State.wf_exchange (State.wf_setHalf hm _ _ _) _ _ _
    · exact wf_addTop hm h
    · exact wf_addBottom hm h
  · rw [State.terminateChannel, if_neg hr] at h
    exact Host.Outcome.next.inj h ▸ hm

/-- Every value made for the CPR is one of the four. -/
theorem legalCpr_cprValue (w : Word) : legalCpr (cprValue w) = true := by
  have h : (0x001C : Word) &&& w = (w.extractLsb' 2 3).setWidth 16 <<< 2 := by
    ext i hi
    simp only [BitVec.getElem_and, BitVec.getElem_shiftLeft, BitVec.getElem_setWidth, BitVec.getLsbD_extractLsb']
    interval_cases i <;> simp
  rw [cprValue, h]
  generalize w.extractLsb' 2 3 = k
  revert k; decide

/-- Start-up and program load leave memory in canonical form and a legal CPR, whatever the free values are. -/
theorem State.initialised_legal (s : State) : Memory.wf s.initialised.mem = true ∧ legalCpr s.initialised.cpr = true :=
  ⟨State.wf_freeMemory s, legalCpr_cprValue _⟩

/-- Restart: memory is as before, but for the Machine Malfunction exchange, and the CPR is legal. -/
theorem State.performRestart_next {s t : State} (h : s.performRestart = .next t) :
    t = (if s.restored.psw.mmEn then s.restored.raiseMalfunction else s.restored) :=
  (Host.Outcome.next.inj (State.guardHalves_next.1 h).2).symm

end Sys2Proof.Machine
end

