-- ==== Sys2Proof/Laws/Boundary.lean ====
section
/-! SUPPORT. What a boundary between two instructions does: which conditions are pending, which host events come first,
and what the step then is. -/

namespace Sys2Proof.Machine

/-! ### Pending conditions -/

theorem Condition.mem_given (c d : Condition) (holds : Bool) : c ∈ d.given holds ↔ c = d ∧ holds = true := by
  cases holds <;> simp [Condition.given]

/-- The pending conditions are those that the state signals. -/
theorem State.mem_pending {s : State} {c : Condition} : c ∈ s.pending ↔ s.signals c := by
  cases c <;>
    simp [State.pending, Condition.mem_given, State.signals, State.attention, State.queueNonEmpty, State.queueWaits,
      State.queueAddr, and_assoc]

theorem State.pending_eq_nil {s : State} : s.pending = [] ↔ s.quiet := by
  rw [List.eq_nil_iff_forall_not_mem]
  exact forall_congr' fun _ => not_congr State.mem_pending

/-! ### Host events -/

theorem storeMany_arrivals (b : Bank) (n : Nat) (r : Nibble) (a : Word) (s : State) :
    (storeMany b n r a s).arrivals = s.arrivals := by rw [storeMany_same]

/-- No event changes the events still to come. -/
theorem State.deliver_arrivals {s t : State} {e : HostEvent} (h : s.deliver e = .next t) : t.arrivals = s.arrivals := by
  cases e with
  | powerDown =>
    simp only [State.deliver, State.saveForPowerDown] at h
    split at h
    · rw [← Host.Outcome.next.inj (State.guardHalves_next.1 h).2]
      simp only [State.setHalf_arrivals, storeMany_arrivals]
    · exact Host.Outcome.next.inj h ▸ rfl
  | powerRestore valid => exact Host.Outcome.next.inj h ▸ rfl
  | programLoad =>
    obtain rfl := Host.Outcome.next.inj h
    unfold State.startLoading; split <;> rfl
  | channelTerminate p e =>
    by_cases hr : s.power = .running
    · rcases (State.terminateChannel_next hr h).2 with rfl | h | h
      · rfl
      all_goals
        obtain rfl := Host.Outcome.next.inj (State.guardHalf_next.1 (consistent_next.1 h).2).2
        rfl
    · rw [State.deliver, State.terminateChannel, if_neg hr] at h
      exact Host.Outcome.next.inj h ▸ rfl
  | dmaWrite b a v => exact Host.Outcome.next.inj (State.guardByte_next.1 h).2 ▸ rfl
  | _ => exact Host.Outcome.next.inj h ▸ rfl

theorem State.deliverAll_arrivals : ∀ {es : List HostEvent} {s t : State}, s.deliverAll es = .next t →
    t.arrivals = s.arrivals
  | [], _, _, h => Host.Outcome.next.inj h ▸ rfl
  | _ :: _, _, _, h => by
    obtain ⟨u, hu, h⟩ := andThen_next.1 h
    exact (State.deliverAll_arrivals h).trans (State.deliver_arrivals hu)

/-! ### The step -/

/-- After the events of its boundary a step is what the processor does in its mode, or nothing where they changed it. -/
theorem step_of_deliverAll {s t : State} (h : s.begun.deliverAll (s.arrivals.headD []) = .next t) :
    step s = if t.power = s.power then t.act exec else .next t := by
  show andThen _ _ = _
  rw [show State.deliverAll { s with arrivals := s.arrivals.tail } (s.arrivals.headD []) = .next t from h]
  rfl

/-- A boundary without events. -/
theorem step_of_no_event {s : State} (h : s.arrivals.headD [] = []) : step s = s.begun.act exec := by
  rw [step_of_deliverAll (t := s.begun) (by rw [h]; rfl)]
  exact if_pos rfl

/-- A boundary without events in a processor that runs. -/
theorem step_of_running {s : State} (h : s.arrivals.headD [] = []) (hp : s.power = .running) :
    step s = s.begun.dropMasked.boundary exec := by
  rw [step_of_no_event h, State.act, show s.begun.power = .running from hp]

end Sys2Proof.Machine
end

