-- ==== Sys2Proof/Laws/Flags.lean ====
section
/-! SUPPORT. What each Condition Code computation says, in the terms of claims. -/

namespace Sys2Proof.Machine

theorem State.loadCc_signFlags {w : Nat} (s : State) (v : BitVec w) : signFlags v (s.loadCc v) := by
  simp [signFlags, State.loadCc, signCc]

theorem outOfRange_iff (w : Nat) (x : Int) : outOfRange w x = true ↔ tooWide w x := by
  simp [outOfRange, tooWide]

theorem addFlags_value {w : Nat} (a b : BitVec w) : (addFlags a b false).value = a + b := by
  apply BitVec.eq_of_toNat_eq; simp [addFlags]

theorem addFlags_value_carry (a b : Word) (cin : Bool) :
    (addFlags a b cin).value = a + b + (if cin then 1 else 0) := by
  apply BitVec.eq_of_toNat_eq; cases cin <;> simp [addFlags, BitVec.toNat_add]

theorem addFlags_carryFlags {w : Nat} (a b : BitVec w) (cin : Bool) : carryFlags a b cin (addFlags a b cin).cc := by
  simp [carryFlags, addFlags, outOfRange_iff]

theorem addFlags_signFlags {w : Nat} (a b : BitVec w) (cin : Bool) :
    signFlags (addFlags a b cin).value (addFlags a b cin).cc := by
  simp [signFlags, addFlags]

theorem addFlags_sumFlags {w : Nat} (a b : BitVec w) : sumFlags a b (addFlags a b false).cc :=
  ⟨addFlags_carryFlags a b false, addFlags_value a b ▸ addFlags_signFlags a b false⟩

theorem subFlags_value {w : Nat} (a b : BitVec w) : (subFlags a b false).value = a - b := by
  rw [BitVec.sub_eq_add_neg]
  apply BitVec.eq_of_toInt_eq
  simp only [subFlags, BitVec.toInt_ofInt, BitVec.toInt_add, BitVec.toInt_neg]
  simp only [Bool.toNat_false, Int.ofNat_zero, Int.sub_zero]
  rw [Int.add_bmod_bmod, ← Int.sub_eq_add_neg, BitVec.toInt_eq_toNat_bmod, BitVec.toInt_eq_toNat_bmod, Int.bmod_sub_bmod,
    Int.sub_bmod_bmod]

theorem subFlags_value_borrow (a b : Word) (bin : Bool) :
    (subFlags a b bin).value = a - b - (if bin then 1 else 0) := by
  cases bin
  · simpa using subFlags_value a b
  · apply BitVec.eq_of_toNat_eq
    have ha := a.isLt; have hb := b.isLt
    simp only [subFlags, BitVec.toNat_ofInt, if_true, Bool.toNat_true]
    bv_omega

theorem subFlags_borrowFlags {w : Nat} (a b : BitVec w) (bin : Bool) :
    borrowFlags a b bin (subFlags a b bin).cc := by
  simp only [borrowFlags, subFlags, outOfRange_iff, decide_eq_true_eq, and_true]
  omega

theorem subFlags_signFlags {w : Nat} (a b : BitVec w) (bin : Bool) :
    signFlags (subFlags a b bin).value (subFlags a b bin).cc := by
  simp [signFlags, subFlags]

theorem subFlags_differenceFlags {w : Nat} (a b : BitVec w) : differenceFlags a b (subFlags a b false).cc :=
  ⟨subFlags_borrowFlags a b false, subFlags_value a b ▸ subFlags_signFlags a b false⟩

theorem chainCc_c (free : Bool) (old : Cc) (f : Flagged 16) : (chainCc free old f).c = f.cc.c := by
  unfold chainCc; repeat' split
  all_goals rfl

theorem chainCc_v (free : Bool) (old : Cc) (f : Flagged 16) : (chainCc free old f).v = f.cc.v := by
  unfold chainCc; repeat' split
  all_goals rfl

theorem chainCc_chainFlags (free : Bool) (old : Cc) (f : Flagged 16) (h : signFlags f.value f.cc) :
    chainFlags old f.value (chainCc free old f) := by
  refine ⟨fun hn => ?_, fun h0 => ?_, fun h0 hg hl => ?_⟩
  · rw [chainCc, if_neg hn]; exact h
  · rw [chainCc, if_pos h0]; split <;> rfl
  · rw [chainCc, if_pos h0, hg, hl]; rfl

theorem compareLogical_orderFlags {w : Nat} (v free : Bool) (a b : BitVec w) :
    orderFlags a b (compareLogical v free a b) := by
  refine ⟨by simp [compareLogical], fun h => by simp [compareLogical, h], fun h => ?_⟩
  have : (a == b) = false := by simpa using h
  simp [compareLogical, this]

theorem compareLogicalFull_fullOrderFlags (v : Bool) (a b : Full) : fullOrderFlags a b (compareLogicalFull v a b) := by
  simp [fullOrderFlags, compareLogicalFull]

theorem compareSigned_signedOrderFlags {w : Nat} (v free : Bool) (a b : BitVec w) :
    signedOrderFlags a b (compareSigned v free a b) := by
  refine ⟨by simp [compareSigned], by simp [compareSigned], fun h => ?_⟩
  simp [compareSigned, h]

theorem signFlags_of_msb {w : Nat} (r : BitVec w) (c v : Bool) :
    signFlags r ⟨c, v, !(r == 0) && !r.msb, r.msb⟩ := by
  have h : r.msb = true ↔ r.toInt < 0 := by rw [BitVec.msb_eq_toInt]; simp
  have h0 : r = 0 ↔ r.toInt = 0 := by
    constructor
    · rintro rfl; simp
    · intro e; exact BitVec.eq_of_toInt_eq (by simpa using e)
  refine ⟨?_, h⟩
  simp only [Bool.and_eq_true, Bool.not_eq_true', beq_eq_false_iff_ne, ne_eq]
  rw [← Bool.not_eq_true, h, h0]
  omega

theorem shiftCc_shiftFlags {w : Nat} (r : BitVec w) (c : Bool) (n : Nat) (last : Bool) (h : n ≠ 0 → c = last) :
    shiftFlags r n last (shiftCc r c) := ⟨rfl, signFlags_of_msb r c false, h⟩

end Sys2Proof.Machine
end

