-- ==== Sys2Proof/Laws/PerInstr.lean ====
section
/-! SUPPORT. For every constructor: its encoding, wherever it has one, decodes to the instruction itself. -/

namespace Sys2Proof.Laws

/-! ### The fields of a first halfword -/

theorem opField_firstHalf (op : Byte) (a b : Nibble) : opField (firstHalf op a b) = op := by
  apply BitVec.eq_of_getLsbD_eq
  intro i hi
  simp only [opField, firstHalf, BitVec.getLsbD_extractLsb', BitVec.getLsbD_append]
  simp [hi, show ¬ 8 + i < 4 by omega, show 8 + i - 4 = i + 4 by omega]

theorem field1_firstHalf (op : Byte) (a b : Nibble) : field1 (firstHalf op a b) = a := by
  apply BitVec.eq_of_getLsbD_eq
  intro i hi
  simp only [field1, firstHalf, BitVec.getLsbD_extractLsb', BitVec.getLsbD_append]
  simp [hi]

theorem field2_firstHalf (op : Byte) (a b : Nibble) : field2 (firstHalf op a b) = b := by
  apply BitVec.eq_of_getLsbD_eq
  intro i hi
  simp only [field2, firstHalf, BitVec.getLsbD_extractLsb', BitVec.getLsbD_append]
  simp [hi]

theorem decode_firstHalf (ps : Params) (op : Byte) (a b : Nibble) (w2 : Word) :
    decode ps (firstHalf op a b) w2 = decodeFields ps op a b w2 := by
  rw [decode, opField_firstHalf, field1_firstHalf, field2_firstHalf]

/-- A code that is fitted means what the listings say. -/
theorem decodeFields_fitted {ps : Params} {op : Byte} (h : fitted ps op = true) (a b : Nibble) (w2 : Word) :
    decodeFields ps op a b w2 = decodeListed op a b w2 := by rw [decodeFields, if_pos h]

namespace RoundTrip

/-- The encoding of an instruction, where it has one, decodes to it; a halfword instruction's whatever follows. -/
def Statement (i : Instr) : Prop :=
  ∀ ps e, encode ps i = some e → ∀ w2, decode ps e.first (e.second.getD w2) = .ok i

/-- The listed encoding of an instruction, where it has one, is of a code that the listings decode to it. -/
theorem of_listed {i : Instr} (h : ∀ e, listed i = some e → ∃ op a b, e.first = firstHalf op a b ∧
    ∀ w2, decodeListed op a b (e.second.getD w2) = .ok i) : Statement i := by
  intro ps e he w2
  obtain ⟨hl, hf⟩ := Option.filter_eq_some_iff.1 he
  obtain ⟨op, a, b, h1, h2⟩ := h e hl
  rw [h1, opField_firstHalf] at hf
  rw [h1, decode_firstHalf, decodeFields_fitted hf, h2]

theorem of_short {i : Instr} {op : Byte} {a b : Nibble} (he : listed i = short op a b)
    (h : ∀ w2, decodeListed op a b w2 = .ok i) : Statement i :=
  of_listed fun e hi => by
    obtain rfl := Option.some.inj (he.symm.trans hi)
    exact ⟨op, a, b, rfl, fun w2 => h _⟩

theorem of_long {i : Instr} {op : Byte} {a b : Nibble} {v : Word} (he : listed i = long op a b v)
    (h : decodeListed op a b v = .ok i) : Statement i :=
  of_listed fun e hi => by
    obtain rfl := Option.some.inj (he.symm.trans hi)
    exact ⟨op, a, b, rfl, fun _ => h⟩

/-- The code of a lost instruction, once set, is one of its candidates. -/
theorem srqaOp_mem {op : Byte} (h : srqaOp = some op) : op ∈ Config.srqaCodes.toList := by
  unfold srqaOp at h
  cases hk : Config.srqaCode with
  | none => simp [hk] at h
  | some k => simp only [hk, Option.map_some, Option.some.injEq] at h; subst h; fin_cases k <;> simp [Config.srqaCodes]

theorem atnrOp_mem {op : Byte} (h : atnrOp = some op) : op ∈ Config.trigCodes.toList := by
  unfold atnrOp at h
  cases hk : Config.atnrCode with
  | none => simp [hk] at h
  | some k => simp only [hk, Option.map_some, Option.some.injEq] at h; subst h; fin_cases k <;> simp [Config.trigCodes]

theorem sqdrOp_mem {op : Byte} (h : sqdrOp = some op) : op ∈ Config.trigCodes.toList ∧ atnrOp ≠ some op := by
  unfold sqdrOp at h
  cases hk : Config.sqdrCode with
  | none => simp [hk] at h
  | some k =>
    simp only [hk, Option.map_some] at h
    split at h
    · cases h
    · next hn =>
      cases h
      refine ⟨?_, hn⟩
      simp only [Config.trigCodes]; fin_cases k <;> simp

/-- No candidate of a lost code is assigned. -/
theorem decodeListed_candidate {op : Byte} (h : op ∈ Config.srqaCodes.toList ∨ op ∈ Config.trigCodes.toList)
    (a b : Nibble) (w2 : Word) : decodeListed op a b w2 = unassigned op a b w2 := by
  simp only [Config.srqaCodes, Config.trigCodes] at h
  simp at h
  rcases h with (h | h | h) | h | h | h | h | h | h | h | h | h | h | h | h | h <;> subst h <;> rfl

theorem srqa (r1 x2 : Nibble) (i2 : Word) : Statement (.srqa r1 x2 i2) := by
  refine of_listed fun e he => ?_
  change (srqaOp.bind fun op => long op r1 x2 i2) = some e at he
  cases hop : srqaOp with
  | none => simp [hop] at he
  | some op =>
    rw [hop, Option.bind_some, long, Option.some.injEq] at he
    subst he
    have hm := srqaOp_mem hop
    refine ⟨op, r1, x2, rfl, fun w2 => ?_⟩
    rw [decodeListed_candidate (.inl hm), unassigned, if_pos (by simpa using hm), if_pos hop]
    rfl

theorem not_srqa {op : Byte} (h : op ∈ Config.trigCodes.toList) : ¬ Config.srqaCodes.toList.contains op = true := by
  simp only [Config.trigCodes] at h
  simp at h
  rcases h with h | h | h | h | h | h | h | h | h | h | h | h | h <;> subst h <;> decide

theorem atnr (r1 r2 : Nibble) : Statement (.atnr r1 r2) := by
  refine of_listed fun e he => ?_
  change (atnrOp.bind fun op => short op r1 r2) = some e at he
  cases hop : atnrOp with
  | none => simp [hop] at he
  | some op =>
    rw [hop, Option.bind_some, short, Option.some.injEq] at he
    subst he
    have hm := atnrOp_mem hop
    refine ⟨op, r1, r2, rfl, fun w2 => ?_⟩
    rw [decodeListed_candidate (.inr hm), unassigned, if_neg (not_srqa hm), if_pos (by simpa using hm), if_pos hop]

theorem sqdr (r1 r2 : Nibble) : Statement (.sqdr r1 r2) := by
  refine of_listed fun e he => ?_
  change (sqdrOp.bind fun op => short op r1 r2) = some e at he
  cases hop : sqdrOp with
  | none => simp [hop] at he
  | some op =>
    rw [hop, Option.bind_some, short, Option.some.injEq] at he
    subst he
    have hm := sqdrOp_mem hop
    refine ⟨op, r1, r2, rfl, fun w2 => ?_⟩
    rw [decodeListed_candidate (.inr hm.1), unassigned, if_neg (not_srqa hm.1), if_pos (by simpa using hm.1),
      if_neg hm.2, if_pos hop]

theorem lis (r1 n : Nibble) : Statement (.lis r1 n) := of_short rfl fun _ => rfl
theorem lcs (r1 n : Nibble) : Statement (.lcs r1 n) := of_short rfl fun _ => rfl
theorem lhr (r1 r2 : Nibble) : Statement (.lhr r1 r2) := of_short rfl fun _ => rfl
theorem lhi (r1 x2 : Nibble) (i2 : Word) : Statement (.lhi r1 x2 i2) := of_long rfl rfl
theorem lh (r1 x2 : Nibble) (a2 : Word) : Statement (.lh r1 x2 a2) := of_long rfl rfl
theorem lh0 (r1 x2 : Nibble) (a2 : Word) : Statement (.lh0 r1 x2 a2) := of_long rfl rfl
theorem lh1 (r1 x2 : Nibble) (a2 : Word) : Statement (.lh1 r1 x2 a2) := of_long rfl rfl
theorem lh2 (r1 x2 : Nibble) (a2 : Word) : Statement (.lh2 r1 x2 a2) := of_long rfl rfl
theorem lh3 (r1 x2 : Nibble) (a2 : Word) : Statement (.lh3 r1 x2 a2) := of_long rfl rfl
theorem lm (r1 x2 : Nibble) (a2 : Word) : Statement (.lm r1 x2 a2) := of_long rfl rfl
theorem ldpr (r1 r2 : Nibble) : Statement (.ldpr r1 r2) := of_short rfl fun _ => rfl
theorem ldp (r1 x2 : Nibble) (a2 : Word) : Statement (.ldp r1 x2 a2) := of_long rfl rfl
theorem sth (r1 x2 : Nibble) (a2 : Word) : Statement (.sth r1 x2 a2) := of_long rfl rfl
theorem sth0 (r1 x2 : Nibble) (a2 : Word) : Statement (.sth0 r1 x2 a2) := of_long rfl rfl
theorem sth1 (r1 x2 : Nibble) (a2 : Word) : Statement (.sth1 r1 x2 a2) := of_long rfl rfl
theorem sth2 (r1 x2 : Nibble) (a2 : Word) : Statement (.sth2 r1 x2 a2) := of_long rfl rfl
theorem sth3 (r1 x2 : Nibble) (a2 : Word) : Statement (.sth3 r1 x2 a2) := of_long rfl rfl
theorem stm (r1 x2 : Nibble) (a2 : Word) : Statement (.stm r1 x2 a2) := of_long rfl rfl
theorem stdp (r1 x2 : Nibble) (a2 : Word) : Statement (.stdp r1 x2 a2) := of_long rfl rfl
theorem ais (r1 n : Nibble) : Statement (.ais r1 n) := of_short rfl fun _ => rfl
theorem ahr (r1 r2 : Nibble) : Statement (.ahr r1 r2) := of_short rfl fun _ => rfl
theorem ahi (r1 x2 : Nibble) (i2 : Word) : Statement (.ahi r1 x2 i2) := of_long rfl rfl
theorem ah (r1 x2 : Nibble) (a2 : Word) : Statement (.ah r1 x2 a2) := of_long rfl rfl
theorem ahm (r1 x2 : Nibble) (a2 : Word) : Statement (.ahm r1 x2 a2) := of_long rfl rfl
theorem achr (r1 r2 : Nibble) : Statement (.achr r1 r2) := of_short rfl fun _ => rfl
theorem ach (r1 x2 : Nibble) (a2 : Word) : Statement (.ach r1 x2 a2) := of_long rfl rfl
theorem adpr (r1 r2 : Nibble) : Statement (.adpr r1 r2) := of_short rfl fun _ => rfl
theorem adp (r1 x2 : Nibble) (a2 : Word) : Statement (.adp r1 x2 a2) := of_long rfl rfl
theorem sis (r1 n : Nibble) : Statement (.sis r1 n) := of_short rfl fun _ => rfl
theorem shr (r1 r2 : Nibble) : Statement (.shr r1 r2) := of_short rfl fun _ => rfl
theorem shi (r1 x2 : Nibble) (i2 : Word) : Statement (.shi r1 x2 i2) := of_long rfl rfl
theorem sh (r1 x2 : Nibble) (a2 : Word) : Statement (.sh r1 x2 a2) := of_long rfl rfl
theorem schr (r1 r2 : Nibble) : Statement (.schr r1 r2) := of_short rfl fun _ => rfl
theorem sch (r1 x2 : Nibble) (a2 : Word) : Statement (.sch r1 x2 a2) := of_long rfl rfl
theorem sdpr (r1 r2 : Nibble) : Statement (.sdpr r1 r2) := of_short rfl fun _ => rfl
theorem sdp (r1 x2 : Nibble) (a2 : Word) : Statement (.sdp r1 x2 a2) := of_long rfl rfl
theorem mhr (r1 r2 : Nibble) : Statement (.mhr r1 r2) := of_short rfl fun _ => rfl
theorem mh (r1 x2 : Nibble) (a2 : Word) : Statement (.mh r1 x2 a2) := of_long rfl rfl
theorem mhur (r1 r2 : Nibble) : Statement (.mhur r1 r2) := of_short rfl fun _ => rfl
theorem mhu (r1 x2 : Nibble) (a2 : Word) : Statement (.mhu r1 x2 a2) := of_long rfl rfl
theorem mdpr (r1 r2 : Nibble) : Statement (.mdpr r1 r2) := of_short rfl fun _ => rfl
theorem mdp (r1 x2 : Nibble) (a2 : Word) : Statement (.mdp r1 x2 a2) := of_long rfl rfl
theorem dhr (r1 r2 : Nibble) : Statement (.dhr r1 r2) := of_short rfl fun _ => rfl
theorem dh (r1 x2 : Nibble) (a2 : Word) : Statement (.dh r1 x2 a2) := of_long rfl rfl
theorem ddpr (r1 r2 : Nibble) : Statement (.ddpr r1 r2) := of_short rfl fun _ => rfl
theorem ddp (r1 x2 : Nibble) (a2 : Word) : Statement (.ddp r1 x2 a2) := of_long rfl rfl
theorem nhr (r1 r2 : Nibble) : Statement (.nhr r1 r2) := of_short rfl fun _ => rfl
theorem nhi (r1 x2 : Nibble) (i2 : Word) : Statement (.nhi r1 x2 i2) := of_long rfl rfl
theorem nh (r1 x2 : Nibble) (a2 : Word) : Statement (.nh r1 x2 a2) := of_long rfl rfl
theorem ohr (r1 r2 : Nibble) : Statement (.ohr r1 r2) := of_short rfl fun _ => rfl
theorem ohi (r1 x2 : Nibble) (i2 : Word) : Statement (.ohi r1 x2 i2) := of_long rfl rfl
theorem oh (r1 x2 : Nibble) (a2 : Word) : Statement (.oh r1 x2 a2) := of_long rfl rfl
theorem xhr (r1 r2 : Nibble) : Statement (.xhr r1 r2) := of_short rfl fun _ => rfl
theorem xhi (r1 x2 : Nibble) (i2 : Word) : Statement (.xhi r1 x2 i2) := of_long rfl rfl
theorem xh (r1 x2 : Nibble) (a2 : Word) : Statement (.xh r1 x2 a2) := of_long rfl rfl
theorem thi (r1 x2 : Nibble) (i2 : Word) : Statement (.thi r1 x2 i2) := of_long rfl rfl
theorem clhr (r1 r2 : Nibble) : Statement (.clhr r1 r2) := of_short rfl fun _ => rfl
theorem clhi (r1 x2 : Nibble) (i2 : Word) : Statement (.clhi r1 x2 i2) := of_long rfl rfl
theorem clh (r1 x2 : Nibble) (a2 : Word) : Statement (.clh r1 x2 a2) := of_long rfl rfl
theorem cldpr (r1 r2 : Nibble) : Statement (.cldpr r1 r2) := of_short rfl fun _ => rfl
theorem cldp (r1 x2 : Nibble) (a2 : Word) : Statement (.cldp r1 x2 a2) := of_long rfl rfl
theorem chr (r1 r2 : Nibble) : Statement (.chr r1 r2) := of_short rfl fun _ => rfl
theorem chi (r1 x2 : Nibble) (i2 : Word) : Statement (.chi r1 x2 i2) := of_long rfl rfl
theorem ch (r1 x2 : Nibble) (a2 : Word) : Statement (.ch r1 x2 a2) := of_long rfl rfl
theorem cdpr (r1 r2 : Nibble) : Statement (.cdpr r1 r2) := of_short rfl fun _ => rfl
theorem cdp (r1 x2 : Nibble) (a2 : Word) : Statement (.cdp r1 x2 a2) := of_long rfl rfl
theorem lbr (r1 r2 : Nibble) : Statement (.lbr r1 r2) := of_short rfl fun _ => rfl
theorem lb (r1 x2 : Nibble) (a2 : Word) : Statement (.lb r1 x2 a2) := of_long rfl rfl
theorem stbr (r1 r2 : Nibble) : Statement (.stbr r1 r2) := of_short rfl fun _ => rfl
theorem stb (r1 x2 : Nibble) (a2 : Word) : Statement (.stb r1 x2 a2) := of_long rfl rfl
theorem exbr (r1 r2 : Nibble) : Statement (.exbr r1 r2) := of_short rfl fun _ => rfl
theorem clb (r1 x2 : Nibble) (a2 : Word) : Statement (.clb r1 x2 a2) := of_long rfl rfl
theorem slls (r1 n : Nibble) : Statement (.slls r1 n) := of_short rfl fun _ => rfl
theorem slhl (r1 x2 : Nibble) (i2 : Word) : Statement (.slhl r1 x2 i2) := of_long rfl rfl
theorem sll (r1 x2 : Nibble) (i2 : Word) : Statement (.sll r1 x2 i2) := of_long rfl rfl
theorem slql (r1 x2 : Nibble) (i2 : Word) : Statement (.slql r1 x2 i2) := of_long rfl rfl
theorem srls (r1 n : Nibble) : Statement (.srls r1 n) := of_short rfl fun _ => rfl
theorem srhl (r1 x2 : Nibble) (i2 : Word) : Statement (.srhl r1 x2 i2) := of_long rfl rfl
theorem srl (r1 x2 : Nibble) (i2 : Word) : Statement (.srl r1 x2 i2) := of_long rfl rfl
theorem srql (r1 x2 : Nibble) (i2 : Word) : Statement (.srql r1 x2 i2) := of_long rfl rfl
theorem rll (r1 x2 : Nibble) (i2 : Word) : Statement (.rll r1 x2 i2) := of_long rfl rfl
theorem rrl (r1 x2 : Nibble) (i2 : Word) : Statement (.rrl r1 x2 i2) := of_long rfl rfl
theorem slha (r1 x2 : Nibble) (i2 : Word) : Statement (.slha r1 x2 i2) := of_long rfl rfl
theorem sla (r1 x2 : Nibble) (i2 : Word) : Statement (.sla r1 x2 i2) := of_long rfl rfl
theorem slqa (r1 x2 : Nibble) (i2 : Word) : Statement (.slqa r1 x2 i2) := of_long rfl rfl
theorem srha (r1 x2 : Nibble) (i2 : Word) : Statement (.srha r1 x2 i2) := of_long rfl rfl
theorem sra (r1 x2 : Nibble) (i2 : Word) : Statement (.sra r1 x2 i2) := of_long rfl rfl
theorem btbs (m1 n : Nibble) : Statement (.btbs m1 n) := of_short rfl fun _ => rfl
theorem btfs (m1 n : Nibble) : Statement (.btfs m1 n) := of_short rfl fun _ => rfl
theorem btcr (m1 r2 : Nibble) : Statement (.btcr m1 r2) := of_short rfl fun _ => rfl
theorem btc (m1 x2 : Nibble) (a2 : Word) : Statement (.btc m1 x2 a2) := of_long rfl rfl
theorem bfbs (m1 n : Nibble) : Statement (.bfbs m1 n) := of_short rfl fun _ => rfl
theorem bffs (m1 n : Nibble) : Statement (.bffs m1 n) := of_short rfl fun _ => rfl
theorem bfcr (m1 r2 : Nibble) : Statement (.bfcr m1 r2) := of_short rfl fun _ => rfl
theorem bfc (m1 x2 : Nibble) (a2 : Word) : Statement (.bfc m1 x2 a2) := of_long rfl rfl
theorem bxh (r1 x2 : Nibble) (i2 : Word) : Statement (.bxh r1 x2 i2) := of_long rfl rfl
theorem bxle (r1 x2 : Nibble) (i2 : Word) : Statement (.bxle r1 x2 i2) := of_long rfl rfl
theorem balr (r1 r2 : Nibble) : Statement (.balr r1 r2) := of_short rfl fun _ => rfl
theorem bal (r1 x2 : Nibble) (a2 : Word) : Statement (.bal r1 x2 a2) := of_long rfl rfl
theorem ler (r1 r2 : Nibble) : Statement (.ler r1 r2) := of_short rfl fun _ => rfl
theorem le (r1 x2 : Nibble) (a2 : Word) : Statement (.le r1 x2 a2) := of_long rfl rfl
theorem ste (r1 x2 : Nibble) (a2 : Word) : Statement (.ste r1 x2 a2) := of_long rfl rfl
theorem aer (r1 r2 : Nibble) : Statement (.aer r1 r2) := of_short rfl fun _ => rfl
theorem ae (r1 x2 : Nibble) (a2 : Word) : Statement (.ae r1 x2 a2) := of_long rfl rfl
theorem ser (r1 r2 : Nibble) : Statement (.ser r1 r2) := of_short rfl fun _ => rfl
theorem se (r1 x2 : Nibble) (a2 : Word) : Statement (.se r1 x2 a2) := of_long rfl rfl
theorem cer (r1 r2 : Nibble) : Statement (.cer r1 r2) := of_short rfl fun _ => rfl
theorem ce (r1 x2 : Nibble) (a2 : Word) : Statement (.ce r1 x2 a2) := of_long rfl rfl
theorem mer (r1 r2 : Nibble) : Statement (.mer r1 r2) := of_short rfl fun _ => rfl
theorem me (r1 x2 : Nibble) (a2 : Word) : Statement (.me r1 x2 a2) := of_long rfl rfl
theorem der (r1 r2 : Nibble) : Statement (.der r1 r2) := of_short rfl fun _ => rfl
theorem de (r1 x2 : Nibble) (a2 : Word) : Statement (.de r1 x2 a2) := of_long rfl rfl
theorem lpsw (r1 x2 : Nibble) (i2 : Word) : Statement (.lpsw r1 x2 i2) := of_long rfl rfl
theorem epor (r1 r2 : Nibble) : Statement (.epor r1 r2) := of_short rfl fun _ => rfl
theorem eppr (r1 r2 : Nibble) : Statement (.eppr r1 r2) := of_short rfl fun _ => rfl
theorem epsr (r1 r2 : Nibble) : Statement (.epsr r1 r2) := of_short rfl fun _ => rfl
theorem sint (r1 x2 : Nibble) (i2 : Word) : Statement (.sint r1 x2 i2) := of_long rfl rfl
theorem svc (r1 x2 : Nibble) (i2 : Word) : Statement (.svc r1 x2 i2) := of_long rfl rfl
theorem air (r1 r2 : Nibble) : Statement (.air r1 r2) := of_short rfl fun _ => rfl
theorem ai (r1 x2 : Nibble) (a2 : Word) : Statement (.ai r1 x2 a2) := of_long rfl rfl
theorem ssr (r1 r2 : Nibble) : Statement (.ssr r1 r2) := of_short rfl fun _ => rfl
theorem ss (r1 x2 : Nibble) (a2 : Word) : Statement (.ss r1 x2 a2) := of_long rfl rfl
theorem ocr (r1 r2 : Nibble) : Statement (.ocr r1 r2) := of_short rfl fun _ => rfl
theorem oc (r1 x2 : Nibble) (a2 : Word) : Statement (.oc r1 x2 a2) := of_long rfl rfl
theorem rdr (r1 r2 : Nibble) : Statement (.rdr r1 r2) := of_short rfl fun _ => rfl
theorem rd (r1 x2 : Nibble) (a2 : Word) : Statement (.rd r1 x2 a2) := of_long rfl rfl
theorem wdr (r1 r2 : Nibble) : Statement (.wdr r1 r2) := of_short rfl fun _ => rfl
theorem wd (r1 x2 : Nibble) (a2 : Word) : Statement (.wd r1 x2 a2) := of_long rfl rfl
theorem al (r1 x2 : Nibble) (a2 : Word) : Statement (.al r1 x2 a2) := of_long rfl rfl
theorem rhr (r1 r2 : Nibble) : Statement (.rhr r1 r2) := of_short rfl fun _ => rfl
theorem rh (r1 x2 : Nibble) (a2 : Word) : Statement (.rh r1 x2 a2) := of_long rfl rfl
theorem whr (r1 r2 : Nibble) : Statement (.whr r1 r2) := of_short rfl fun _ => rfl
theorem wh (r1 x2 : Nibble) (a2 : Word) : Statement (.wh r1 x2 a2) := of_long rfl rfl
theorem rbr (r1 r2 : Nibble) : Statement (.rbr r1 r2) := of_short rfl fun _ => rfl
theorem rb (r1 x2 : Nibble) (a2 : Word) : Statement (.rb r1 x2 a2) := of_long rfl rfl
theorem wbr (r1 r2 : Nibble) : Statement (.wbr r1 r2) := of_short rfl fun _ => rfl
theorem wb (r1 x2 : Nibble) (a2 : Word) : Statement (.wb r1 x2 a2) := of_long rfl rfl
theorem atl (r1 x2 : Nibble) (a2 : Word) : Statement (.atl r1 x2 a2) := of_long rfl rfl
theorem abl (r1 x2 : Nibble) (a2 : Word) : Statement (.abl r1 x2 a2) := of_long rfl rfl
theorem rtl (r1 x2 : Nibble) (a2 : Word) : Statement (.rtl r1 x2 a2) := of_long rfl rfl
theorem rbl (r1 x2 : Nibble) (a2 : Word) : Statement (.rbl r1 x2 a2) := of_long rfl rfl
theorem ecpr (r1 r2 : Nibble) : Statement (.ecpr r1 r2) := of_short rfl fun _ => rfl
theorem cosr (r1 r2 : Nibble) : Statement (.cosr r1 r2) := of_short rfl fun _ => rfl
theorem cos (r1 x2 : Nibble) (a2 : Word) : Statement (.cos r1 x2 a2) := of_long rfl rfl
theorem asnr (r1 r2 : Nibble) : Statement (.asnr r1 r2) := of_short rfl fun _ => rfl
theorem asn (r1 x2 : Nibble) (a2 : Word) : Statement (.asn r1 x2 a2) := of_long rfl rfl
theorem atn (r1 x2 : Nibble) (a2 : Word) : Statement (.atn r1 x2 a2) := of_long rfl rfl
theorem sqd (r1 x2 : Nibble) (a2 : Word) : Statement (.sqd r1 x2 a2) := of_long rfl rfl
theorem sesb (r1 x2 : Nibble) (i2 : Word) : Statement (.sesb r1 x2 i2) := of_long rfl rfl
theorem resb (r1 x2 : Nibble) (i2 : Word) : Statement (.resb r1 x2 i2) := of_long rfl rfl
theorem lchr (r1 r2 : Nibble) : Statement (.lchr r1 r2) := of_short rfl fun _ => rfl
theorem lch (r1 x2 : Nibble) (a2 : Word) : Statement (.lch r1 x2 a2) := of_long rfl rfl
theorem lcnhr (r1 r2 : Nibble) : Statement (.lcnhr r1 r2) := of_short rfl fun _ => rfl
theorem lcnh (r1 x2 : Nibble) (a2 : Word) : Statement (.lcnh r1 x2 a2) := of_long rfl rfl
theorem lavr (r1 r2 : Nibble) : Statement (.lavr r1 r2) := of_short rfl fun _ => rfl
theorem lav (r1 x2 : Nibble) (a2 : Word) : Statement (.lav r1 x2 a2) := of_long rfl rfl
theorem lfr (r1 r2 : Nibble) : Statement (.lfr r1 r2) := of_short rfl fun _ => rfl
theorem lf (r1 x2 : Nibble) (a2 : Word) : Statement (.lf r1 x2 a2) := of_long rfl rfl
theorem stf (r1 x2 : Nibble) (a2 : Word) : Statement (.stf r1 x2 a2) := of_long rfl rfl
theorem afr (r1 r2 : Nibble) : Statement (.afr r1 r2) := of_short rfl fun _ => rfl
theorem af (r1 x2 : Nibble) (a2 : Word) : Statement (.af r1 x2 a2) := of_long rfl rfl
theorem sfr (r1 r2 : Nibble) : Statement (.sfr r1 r2) := of_short rfl fun _ => rfl
theorem sf (r1 x2 : Nibble) (a2 : Word) : Statement (.sf r1 x2 a2) := of_long rfl rfl
theorem cfr (r1 r2 : Nibble) : Statement (.cfr r1 r2) := of_short rfl fun _ => rfl
theorem cf (r1 x2 : Nibble) (a2 : Word) : Statement (.cf r1 x2 a2) := of_long rfl rfl
theorem mfr (r1 r2 : Nibble) : Statement (.mfr r1 r2) := of_short rfl fun _ => rfl
theorem mf (r1 x2 : Nibble) (a2 : Word) : Statement (.mf r1 x2 a2) := of_long rfl rfl
theorem dfr (r1 r2 : Nibble) : Statement (.dfr r1 r2) := of_short rfl fun _ => rfl
theorem df (r1 x2 : Nibble) (a2 : Word) : Statement (.df r1 x2 a2) := of_long rfl rfl

end RoundTrip

end Sys2Proof.Laws
end

