-- ==== Sys2Proof/Laws/Values.lean ====
section
/-! SUPPORT. The values that division and the shifts compute. -/

namespace Sys2Proof.Machine

/-! ### Division -/

/-- A quotient that fits is stored with its remainder. -/
theorem divide_fits {w : Nat} {n d : Int} (free : Bool) (h : quotientFits w n d) :
    divide w n d free = some (n.tmod d, n.tdiv d) := by
  obtain ⟨h1, h2, h3⟩ := h
  have h4 : outOfRange w (n.tdiv d) = false := by
    rw [← Bool.not_eq_true, outOfRange_iff, tooWide]; omega
  have h5 : (decide (n.tdiv d = -(2 ^ (w - 1))) && free) = false := by
    have : ¬ n.tdiv d = -(2 ^ (w - 1)) := by omega
    simp [this]
  simp only [divide, h1, if_false, h4, h5]
  have := Int.mul_tdiv_add_tmod n d
  have e : n - n.tdiv d * d = n.tmod d := by rw [Int.mul_comm]; omega
  simp [e]

/-- A division that cannot be done is the divide fault. -/
theorem divide_overflows {w : Nat} {n d : Int} (free : Bool) (h : divideOverflows w n d) :
    divide w n d free = none := by
  unfold divide
  rcases h with h | h
  · simp [h]
  · have := (outOfRange_iff w (n.tdiv d)).2 h
    simp [this]

/-! ### Shifts -/

theorem shiftLeftLogical_value {w : Nat} (f : Bool) (v : BitVec w) (n : Nat) :
    (shiftLeftLogical f v n).value = BitVec.ofNat w (v.toNat * 2 ^ n) := by
  apply BitVec.eq_of_toNat_eq; simp [shiftLeftLogical, Nat.shiftLeft_eq]

theorem shiftRightLogical_value {w : Nat} (f : Bool) (v : BitVec w) (n : Nat) :
    (shiftRightLogical f v n).value = BitVec.ofNat w (v.toNat / 2 ^ n) := by
  apply BitVec.eq_of_toNat_eq
  simp only [shiftRightLogical, BitVec.toNat_ushiftRight, BitVec.toNat_ofNat, Nat.shiftRight_eq_div_pow]
  exact (Nat.mod_eq_of_lt (lt_of_le_of_lt (Nat.div_le_self _ _) v.isLt)).symm

theorem shiftRightArithmetic_value {w : Nat} (f : Bool) (v : BitVec w) (n : Nat) :
    (shiftRightArithmetic f v n).value = BitVec.ofInt w (v.toInt / 2 ^ n) := by
  show v.sshiftRight n = _
  rw [BitVec.sshiftRight, Int.shiftRight_eq_div_pow]; simp

theorem testBit_add_top {w i x : Nat} (hi : i < w) (hx : x < 2 ^ (w - 1)) (b : Bool) :
    (x + if b then 2 ^ (w - 1) else 0).testBit i = if i = w - 1 then b else x.testBit i := by
  cases b
  · simp only [Bool.false_eq_true, if_false, Nat.add_zero]
    split
    · next h => rw [h]; exact Nat.testBit_lt_two_pow hx
    · rfl
  · simp only [if_true]
    rw [Nat.add_comm]
    by_cases h : i = w - 1
    · subst h; rw [Nat.testBit_two_pow_add_eq]; simp [Nat.testBit_lt_two_pow hx]
    · rw [Nat.testBit_two_pow_add_gt (by omega)]; simp [h]

/-- To the left the sign bit stays and the other bits shift out past it. -/
theorem shiftLeftArithmetic_value {w : Nat} (hw : 0 < w) (f : Bool) (v : BitVec w) (n : Nat) :
    (shiftLeftArithmetic f v n).value =
      BitVec.ofNat w (v.toNat * 2 ^ n % 2 ^ (w - 1) + if v.msb then 2 ^ (w - 1) else 0) := by
  symm
  apply BitVec.eq_of_getLsbD_eq
  intro i hi
  have hv : (v.toNat * 2 ^ n % 2 ^ (w - 1)).testBit i =
      (decide (i < w - 1) && (decide (n ≤ i) && v.getLsbD (i - n))) := by
    rw [Nat.testBit_mod_two_pow, ← Nat.shiftLeft_eq, Nat.testBit_shiftLeft]
    rfl
  rw [BitVec.getLsbD_ofNat, testBit_add_top hi (Nat.mod_lt _ (by positivity)), hv]
  unfold shiftLeftArithmetic
  simp only
  by_cases hi1 : i = w - 1
  · subst hi1
    cases hmsb : v.msb <;>
      simp [BitVec.getLsbD_intMin, hw, hi, show w - 1 + 1 = w by omega, ← BitVec.getLsbD_eq_getElem]
  · cases hmsb : v.msb <;>
      simp [BitVec.getLsbD_intMin, hi, hi1, show ¬ i + 1 = w by omega, show i < w - 1 by omega, hw,
        ← BitVec.getLsbD_eq_getElem] <;>
      (rcases Nat.lt_or_ge i n with h | h
       · simp [h, show ¬ n ≤ i by omega]
       · simp [h, show ¬ i < n by omega])

/-- The bit `n` places from the right end, counted from the left. -/
theorem getMsbD_sub {w n : Nat} (v : BitVec w) (h : n ≠ 0) (h' : n < w) : v.getMsbD (w - n) = v.getLsbD (n - 1) := by
  have : w - n < w := by omega
  rw [BitVec.getMsbD]; simp only [this, decide_true, Bool.true_and]
  congr 1; omega

end Sys2Proof.Machine
end

