-- ==== Sys2Proof/Tests/Slice0.lean ====
section
/-! SUPPORT. Tests. The words and the expected results are those of the spec: the operation codes of
spec/opcode_table.json, the vectors of 96_derived_vectors.md (a step test ends in the name of its row), and a state that
meets the hypotheses of each obligation. -/

namespace Sys2Proof.Tests

open Sys2Proof.Machine

/-! ### Well-formedness: a term that each check refuses, and one that it accepts -/

theorem test_wellFormed_even : wellFormed (.ldpr 3 4) = false ∧ wellFormed (.ldpr 4 3) = false ∧
    wellFormed (.mhr 15 0) = false ∧ wellFormed (.ler 0 1) = false ∧ wellFormed (.ldpr 14 0) = true := by decide

theorem test_wellFormed_quad : wellFormed (.mdpr 14 0) = false ∧ wellFormed (.slql 5 0 0) = false ∧
    wellFormed (.asnr 0 14) = false ∧ wellFormed (.mdpr 12 0) = true := by decide

theorem test_wellFormed_triple : wellFormed (.bxh 14 0 0) = false ∧ wellFormed (.bxle 13 0 0) = true := by decide

theorem test_wellFormed_pair : wellFormed (.eppr 15 0) = false ∧ wellFormed (.rbr 0 15) = false ∧
    wellFormed (.wbr 15 14) = true ∧ wellFormed (.eppr 13 15) = true := by decide

theorem test_wellFormed_zero : wellFormed (.lpsw 1 0 0) = false ∧ wellFormed (.sint 1 0 0) = false ∧
    wellFormed (.al 1 0 0) = false ∧ wellFormed (.sesb 1 0 0) = false ∧ wellFormed (.sesb 0 1 0) = false ∧
    wellFormed (.resb 0 1 0) = false ∧ wellFormed (.lpsw 0 15 1) = true := by decide

/-- The decoder with the default parameters. -/
abbrev read (w1 w2 : Word) : Except DecodeError Instr := decode Params.default w1 w2

/-! ### Decoding: the word of every instruction, fields 10 and 5, second halfword 1234 -/

theorem test_decode_load_store :
    read 0x24A5 0 = .ok (.lis 10 5) ∧ read 0x25A5 0 = .ok (.lcs 10 5) ∧ read 0x08A5 0 = .ok (.lhr 10 5) ∧
    read 0xC8A5 0x1234 = .ok (.lhi 10 5 0x1234) ∧ read 0x48A5 0x1234 = .ok (.lh 10 5 0x1234) ∧
    read 0x74A5 0x1234 = .ok (.lh0 10 5 0x1234) ∧ read 0x75A5 0x1234 = .ok (.lh1 10 5 0x1234) ∧
    read 0x76A5 0x1234 = .ok (.lh2 10 5 0x1234) ∧ read 0x77A5 0x1234 = .ok (.lh3 10 5 0x1234) ∧
    read 0xD1A5 0x1234 = .ok (.lm 10 5 0x1234) ∧ read 0x18A5 0 = .ok (.ldpr 10 5) ∧
    read 0x58A5 0x1234 = .ok (.ldp 10 5 0x1234) ∧ read 0x40A5 0x1234 = .ok (.sth 10 5 0x1234) ∧
    read 0xF8A5 0x1234 = .ok (.sth0 10 5 0x1234) ∧ read 0xF9A5 0x1234 = .ok (.sth1 10 5 0x1234) ∧
    read 0xFAA5 0x1234 = .ok (.sth2 10 5 0x1234) ∧ read 0xFBA5 0x1234 = .ok (.sth3 10 5 0x1234) ∧
    read 0xD0A5 0x1234 = .ok (.stm 10 5 0x1234) ∧ read 0x50A5 0x1234 = .ok (.stdp 10 5 0x1234) := by decide

theorem test_decode_arithmetic :
    read 0x26A5 0 = .ok (.ais 10 5) ∧ read 0x0AA5 0 = .ok (.ahr 10 5) ∧
    read 0xCAA5 0x1234 = .ok (.ahi 10 5 0x1234) ∧ read 0x4AA5 0x1234 = .ok (.ah 10 5 0x1234) ∧
    read 0x61A5 0x1234 = .ok (.ahm 10 5 0x1234) ∧ read 0x0EA5 0 = .ok (.achr 10 5) ∧
    read 0x4EA5 0x1234 = .ok (.ach 10 5 0x1234) ∧ read 0x1AA5 0 = .ok (.adpr 10 5) ∧
    read 0x5AA5 0x1234 = .ok (.adp 10 5 0x1234) ∧ read 0x27A5 0 = .ok (.sis 10 5) ∧
    read 0x0BA5 0 = .ok (.shr 10 5) ∧ read 0xCBA5 0x1234 = .ok (.shi 10 5 0x1234) ∧
    read 0x4BA5 0x1234 = .ok (.sh 10 5 0x1234) ∧ read 0x0FA5 0 = .ok (.schr 10 5) ∧
    read 0x4FA5 0x1234 = .ok (.sch 10 5 0x1234) ∧ read 0x1BA5 0 = .ok (.sdpr 10 5) ∧
    read 0x5BA5 0x1234 = .ok (.sdp 10 5 0x1234) ∧ read 0x0CA5 0 = .ok (.mhr 10 5) ∧
    read 0x4CA5 0x1234 = .ok (.mh 10 5 0x1234) ∧ read 0x9CA5 0 = .ok (.mhur 10 5) ∧
    read 0xDCA5 0x1234 = .ok (.mhu 10 5 0x1234) ∧ read 0x1CA5 0 = .ok (.mdpr 10 5) ∧
    read 0x5CA5 0x1234 = .ok (.mdp 10 5 0x1234) ∧ read 0x0DA5 0 = .ok (.dhr 10 5) ∧
    read 0x4DA5 0x1234 = .ok (.dh 10 5 0x1234) ∧ read 0x1DA5 0 = .ok (.ddpr 10 5) ∧
    read 0x5DA5 0x1234 = .ok (.ddp 10 5 0x1234) := by decide

theorem test_decode_logical_compare :
    read 0x04A5 0 = .ok (.nhr 10 5) ∧ read 0xC4A5 0x1234 = .ok (.nhi 10 5 0x1234) ∧
    read 0x44A5 0x1234 = .ok (.nh 10 5 0x1234) ∧ read 0x06A5 0 = .ok (.ohr 10 5) ∧
    read 0xC6A5 0x1234 = .ok (.ohi 10 5 0x1234) ∧ read 0x46A5 0x1234 = .ok (.oh 10 5 0x1234) ∧
    read 0x07A5 0 = .ok (.xhr 10 5) ∧ read 0xC7A5 0x1234 = .ok (.xhi 10 5 0x1234) ∧
    read 0x47A5 0x1234 = .ok (.xh 10 5 0x1234) ∧ read 0xC3A5 0x1234 = .ok (.thi 10 5 0x1234) ∧
    read 0x05A5 0 = .ok (.clhr 10 5) ∧ read 0xC5A5 0x1234 = .ok (.clhi 10 5 0x1234) ∧
    read 0x45A5 0x1234 = .ok (.clh 10 5 0x1234) ∧ read 0x15A5 0 = .ok (.cldpr 10 5) ∧
    read 0x55A5 0x1234 = .ok (.cldp 10 5 0x1234) ∧ read 0x09A5 0 = .ok (.chr 10 5) ∧
    read 0xC9A5 0x1234 = .ok (.chi 10 5 0x1234) ∧ read 0x49A5 0x1234 = .ok (.ch 10 5 0x1234) ∧
    read 0x19A5 0 = .ok (.cdpr 10 5) ∧ read 0x59A5 0x1234 = .ok (.cdp 10 5 0x1234) := by decide

theorem test_decode_byte :
    read 0x93A5 0 = .ok (.lbr 10 5) ∧ read 0xD3A5 0x1234 = .ok (.lb 10 5 0x1234) ∧
    read 0x92A5 0 = .ok (.stbr 10 5) ∧ read 0xD2A5 0x1234 = .ok (.stb 10 5 0x1234) ∧
    read 0x94A5 0 = .ok (.exbr 10 5) ∧ read 0xD4A5 0x1234 = .ok (.clb 10 5 0x1234) := by decide

theorem test_decode_shift_rotate :
    read 0x91A5 0 = .ok (.slls 10 5) ∧ read 0xCDA5 0x1234 = .ok (.slhl 10 5 0x1234) ∧
    read 0xEDA5 0x1234 = .ok (.sll 10 5 0x1234) ∧ read 0xE7A5 0x1234 = .ok (.slql 10 5 0x1234) ∧
    read 0x90A5 0 = .ok (.srls 10 5) ∧ read 0xCCA5 0x1234 = .ok (.srhl 10 5 0x1234) ∧
    read 0xECA5 0x1234 = .ok (.srl 10 5 0x1234) ∧ read 0xE8A5 0x1234 = .ok (.srql 10 5 0x1234) ∧
    read 0xEBA5 0x1234 = .ok (.rll 10 5 0x1234) ∧ read 0xEAA5 0x1234 = .ok (.rrl 10 5 0x1234) ∧
    read 0xCFA5 0x1234 = .ok (.slha 10 5 0x1234) ∧ read 0xEFA5 0x1234 = .ok (.sla 10 5 0x1234) ∧
    read 0xE9A5 0x1234 = .ok (.slqa 10 5 0x1234) ∧ read 0xCEA5 0x1234 = .ok (.srha 10 5 0x1234) ∧
    read 0xEEA5 0x1234 = .ok (.sra 10 5 0x1234) := by decide

theorem test_decode_branch :
    read 0x20A5 0 = .ok (.btbs 10 5) ∧ read 0x21A5 0 = .ok (.btfs 10 5) ∧ read 0x02A5 0 = .ok (.btcr 10 5) ∧
    read 0x42A5 0x1234 = .ok (.btc 10 5 0x1234) ∧ read 0x22A5 0 = .ok (.bfbs 10 5) ∧
    read 0x23A5 0 = .ok (.bffs 10 5) ∧ read 0x03A5 0 = .ok (.bfcr 10 5) ∧
    read 0x43A5 0x1234 = .ok (.bfc 10 5 0x1234) ∧ read 0xC0A5 0x1234 = .ok (.bxh 10 5 0x1234) ∧
    read 0xC1A5 0x1234 = .ok (.bxle 10 5 0x1234) ∧ read 0x01A5 0 = .ok (.balr 10 5) ∧
    read 0x41A5 0x1234 = .ok (.bal 10 5 0x1234) := by decide

theorem test_decode_floating_point :
    read 0x28A5 0 = .ok (.ler 10 5) ∧ read 0x68A5 0x1234 = .ok (.le 10 5 0x1234) ∧
    read 0x60A5 0x1234 = .ok (.ste 10 5 0x1234) ∧ read 0x2AA5 0 = .ok (.aer 10 5) ∧
    read 0x6AA5 0x1234 = .ok (.ae 10 5 0x1234) ∧ read 0x2BA5 0 = .ok (.ser 10 5) ∧
    read 0x6BA5 0x1234 = .ok (.se 10 5 0x1234) ∧ read 0x29A5 0 = .ok (.cer 10 5) ∧
    read 0x69A5 0x1234 = .ok (.ce 10 5 0x1234) ∧ read 0x2CA5 0 = .ok (.mer 10 5) ∧
    read 0x6CA5 0x1234 = .ok (.me 10 5 0x1234) ∧ read 0x2DA5 0 = .ok (.der 10 5) ∧
    read 0x6DA5 0x1234 = .ok (.de 10 5 0x1234) := by decide

theorem test_decode_system_control :
    read 0xC2A5 0x1234 = .ok (.lpsw 10 5 0x1234) ∧ read 0x2EA5 0 = .ok (.epor 10 5) ∧
    read 0x2FA5 0 = .ok (.eppr 10 5) ∧ read 0x95A5 0 = .ok (.epsr 10 5) ∧
    read 0xE2A5 0x1234 = .ok (.sint 10 5 0x1234) ∧ read 0xE1A5 0x1234 = .ok (.svc 10 5 0x1234) := by decide

theorem test_decode_input_output :
    read 0x9FA5 0 = .ok (.air 10 5) ∧ read 0xDFA5 0x1234 = .ok (.ai 10 5 0x1234) ∧
    read 0x9DA5 0 = .ok (.ssr 10 5) ∧ read 0xDDA5 0x1234 = .ok (.ss 10 5 0x1234) ∧
    read 0x9EA5 0 = .ok (.ocr 10 5) ∧ read 0xDEA5 0x1234 = .ok (.oc 10 5 0x1234) ∧
    read 0x9BA5 0 = .ok (.rdr 10 5) ∧ read 0xDBA5 0x1234 = .ok (.rd 10 5 0x1234) ∧
    read 0x9AA5 0 = .ok (.wdr 10 5) ∧ read 0xDAA5 0x1234 = .ok (.wd 10 5 0x1234) ∧
    read 0xD5A5 0x1234 = .ok (.al 10 5 0x1234) ∧ read 0x99A5 0 = .ok (.rhr 10 5) ∧
    read 0xD9A5 0x1234 = .ok (.rh 10 5 0x1234) ∧ read 0x98A5 0 = .ok (.whr 10 5) ∧
    read 0xD8A5 0x1234 = .ok (.wh 10 5 0x1234) ∧ read 0x97A5 0 = .ok (.rbr 10 5) ∧
    read 0xD7A5 0x1234 = .ok (.rb 10 5 0x1234) ∧ read 0x96A5 0 = .ok (.wbr 10 5) ∧
    read 0xD6A5 0x1234 = .ok (.wb 10 5 0x1234) := by decide

theorem test_decode_list :
    read 0x64A5 0x1234 = .ok (.atl 10 5 0x1234) ∧ read 0x65A5 0x1234 = .ok (.abl 10 5 0x1234) ∧
    read 0x66A5 0x1234 = .ok (.rtl 10 5 0x1234) ∧ read 0x67A5 0x1234 = .ok (.rbl 10 5 0x1234) := by decide

theorem test_decode_trigonometric :
    read 0x80A5 0 = .ok (.ecpr 10 5) ∧ read 0x81A5 0 = .ok (.cosr 10 5) ∧
    read 0xF1A5 0x1234 = .ok (.cos 10 5 0x1234) ∧ read 0x84A5 0 = .ok (.asnr 10 5) ∧
    read 0xF4A5 0x1234 = .ok (.asn 10 5 0x1234) ∧ read 0xF2A5 0x1234 = .ok (.atn 10 5 0x1234) ∧
    read 0xF3A5 0x1234 = .ok (.sqd 10 5 0x1234) := by decide

theorem test_decode_augment :
    read 0xE4A5 0x1234 = .ok (.sesb 10 5 0x1234) ∧ read 0xE3A5 0x1234 = .ok (.resb 10 5 0x1234) ∧
    read 0x12A5 0 = .ok (.lchr 10 5) ∧ read 0x53A5 0x1234 = .ok (.lch 10 5 0x1234) ∧
    read 0x10A5 0 = .ok (.lcnhr 10 5) ∧ read 0x51A5 0x1234 = .ok (.lcnh 10 5 0x1234) ∧
    read 0x11A5 0 = .ok (.lavr 10 5) ∧ read 0x52A5 0x1234 = .ok (.lav 10 5 0x1234) := by decide

theorem test_decode_48_bit_floating_point_no_ops :
    read 0x38A5 0 = .ok (.lfr 10 5) ∧ read 0x78A5 0x1234 = .ok (.lf 10 5 0x1234) ∧
    read 0x70A5 0x1234 = .ok (.stf 10 5 0x1234) ∧ read 0x3AA5 0 = .ok (.afr 10 5) ∧
    read 0x7AA5 0x1234 = .ok (.af 10 5 0x1234) ∧ read 0x3BA5 0 = .ok (.sfr 10 5) ∧
    read 0x7BA5 0x1234 = .ok (.sf 10 5 0x1234) ∧ read 0x39A5 0 = .ok (.cfr 10 5) ∧
    read 0x79A5 0x1234 = .ok (.cf 10 5 0x1234) ∧ read 0x3CA5 0 = .ok (.mfr 10 5) ∧
    read 0x7CA5 0x1234 = .ok (.mf 10 5 0x1234) ∧ read 0x3DA5 0 = .ok (.dfr 10 5) ∧
    read 0x7DA5 0x1234 = .ok (.df 10 5 0x1234) := by decide

/-- 30_encoding.md R115: SRQA, with its parameter set to E6. -/
theorem test_decode_srqa (h : srqaOp = some 0xE6) : read 0xE6A5 0x1234 = .ok (.srqa 10 5 0x1234) := by
  have e : unassigned 0xE6 10 5 0x1234 = .ok (.srqa 10 5 0x1234) := by
    unfold unassigned; rw [if_pos (by decide), if_pos h]
  exact e

/-- 30_encoding.md R115: ATNR, with its parameter set to 85. -/
theorem test_decode_atnr (h : atnrOp = some 0x85) : read 0x85A5 0 = .ok (.atnr 10 5) := by
  have e : unassigned 0x85 10 5 0 = .ok (.atnr 10 5) := by
    unfold unassigned; rw [if_neg (by decide), if_pos (by decide), if_pos h]
  exact e

/-- 30_encoding.md R115: SQDR, with its parameter set to 86. -/
theorem test_decode_sqdr (h : sqdrOp = some 0x86) (h1 : atnrOp ≠ some 0x86) : read 0x86A5 0 = .ok (.sqdr 10 5) := by
  have e : unassigned 0x86 10 5 0 = .ok (.sqdr 10 5) := by
    unfold unassigned; rw [if_neg (by decide), if_pos (by decide), if_neg h1, if_pos h]
  exact e

/-- 30_encoding.md R113: codes that nothing has. -/
theorem test_decode_illegal : read 0x0000 0 = .error (.illegalOpcode 0x00) ∧
    read 0xA000 0 = .error (.illegalOpcode 0xA0) ∧ read 0xFF00 0x1234 = .error (.illegalOpcode 0xFF) := by decide

/-- 49_list_trig_augment.md R416, R430 (rows AU15 and TR9): the codes of an option that is not fitted are illegal. -/
theorem test_decode_unfitted :
    decode { Params.default with hasAugment := false } 0x1212 0 = .error (.illegalOpcode 0x12) ∧
    decode { Params.default with hasTrig := false } 0x8142 0 = .error (.illegalOpcode 0x81) ∧
    decode { Params.default with hasTrig := false } 0x8500 0 = .error (.illegalOpcode 0x85) := by decide

/-- A table word of two halfwords and one of one halfword. -/
theorem test_table_word : decodeTableWord 32 0xC8621234 = some (.lhi 6 2 0x1234) ∧
    decodeTableWord 16 0x2437 = some (.lis 3 7) := by decide

/-! ### Steps -/

/-- The state of the spec's vectors: everything zero, at bank 0, address 0100. -/
def start : State := State.reset.setLc 0x0100

/-- A Condition Code. -/
abbrev cc (c v g l : Bool) : Cc := ⟨c, v, g, l⟩

/-- A step that gives a next state with a property. -/
def goes (s : State) (p : State → Bool) : Bool :=
  match step s with
  | .next t => p t
  | _ => false

/-- A machine with memory in bank 0 only, up to 03FF. -/
def small : State := { start with params := { Params.default with blocks := [⟨0, 0x0400⟩] } }

/-- A machine whose memory lacks one byte of the low 64 K, from 2D0 on. -/
def lacking (a : Nat) : State :=
  { start with params := { Params.default with blocks := [⟨0, a⟩, ⟨a + 1, 0xFFFF - a⟩] } }

/-- A step that is refused. -/
def refuses (s : State) (r : Refusal) : Bool :=
  match step s with
  | .refused q => q == r
  | _ => false

/-- One step, with an instruction where it is fetched. -/
def runs (w1 w2 : Word) (s : State) (p : State → Bool) : Bool := goes (s.placeHalves w1 w2) p

theorem test_lis_LS2 : runs 0x241F 0 (start) (fun t =>
    (t.reg 1 == 0x000F) && t.psw.cc.g && !t.psw.cc.l && (t.psw.lc == 0x0102)) = true := by decide

theorem test_lcs_LS4 : runs 0x2511 0 (start) (fun t =>
    (t.reg 1 == 0xFFFF) && !t.psw.cc.g && t.psw.cc.l && (t.psw.lc == 0x0102)) = true := by decide

theorem test_lhr_LS6 : runs 0x0812 0 (start |>.setReg 2 0x8000) (fun t =>
    (t.reg 1 == 0x8000) && !t.psw.cc.g && t.psw.cc.l && (t.psw.lc == 0x0102)) = true := by decide

theorem test_lhi_LS9 : runs 0xC812 0x0001 (start |>.setReg 2 0xFFFF) (fun t =>
    (t.reg 2 == 0xFFFF) && !t.psw.cc.g && !t.psw.cc.l && (t.psw.lc == 0x0104)) = true := by decide

theorem test_lh_LS13 : runs 0x4812 0xFFFE (start |>.setReg 2 0x0054 |>.setFull 0 0x0050 0x01234567
      |>.setFull 0 0x0054 0x89ABCDEF) (fun t =>
    (t.reg 1 == 0x4567) && t.psw.cc.g && !t.psw.cc.l && (t.psw.lc == 0x0104)) = true := by decide

theorem test_lh0_LS16 : runs 0x7410 0x0050 (start |>.setStatus 0x0010 |>.setHalf 0 0x0050 0x0123
      |>.setHalf 1 0x0050 0xBEEF) (fun t =>
    (t.reg 1 == 0x0123) && t.psw.cc.g && !t.psw.cc.l && (t.psw.lc == 0x0104)) = true := by decide

theorem test_lh3_LS17 : runs 0x7710 0x0050 (start |>.setHalf 3 0x0050 0x7FFF) (fun t =>
    (t.reg 1 == 0x7FFF) && t.psw.cc.g && !t.psw.cc.l && (t.psw.lc == 0x0104)) = true := by decide

theorem test_lh2_LS18 : runs 0x7612 0x0050 (start |>.setReg 2 0x0004 |>.setHalf 2 0x0054 0x0000) (fun t =>
    (t.reg 2 == 0x0004) && !t.psw.cc.g && !t.psw.cc.l && (t.psw.lc == 0x0104)) = true := by decide

theorem test_lm_LS21 : runs 0xD1E0 0xFFFE (start |>.setHalf 0 0x0000 0xBBBB |>.setHalf 0 0xFFFE 0xAAAA) (fun t =>
    (t.reg 14 == 0xAAAA) && (t.reg 15 == 0xBBBB) && (t.psw.cc == cc false false false false) &&
      (t.psw.lc == 0x0104)) = true := by decide

theorem test_ldpr_LS23 : runs 0x1824 0 (start |>.setReg 4 0x89AB |>.setReg 5 0xCDEF) (fun t =>
    (t.reg 2 == 0x89AB) && (t.reg 3 == 0xCDEF) && !t.psw.cc.g && t.psw.cc.l &&
      (t.psw.lc == 0x0102)) = true := by decide

theorem test_ldp_LS27 : runs 0x5820 0xFFFE (start |>.setHalf 0 0x0000 0x5678 |>.setHalf 0 0xFFFE 0x1234) (fun t =>
    (t.reg 2 == 0x1234) && (t.reg 3 == 0x5678) && t.psw.cc.g && !t.psw.cc.l &&
      (t.psw.lc == 0x0104)) = true := by decide

theorem test_sth_LS28 : runs 0x4010 0x0200 (start |>.setStatus 0x000A |>.setReg 1 0xBEEF) (fun t =>
    (t.halfAt 0 0x0200 == 0xBEEF) && (t.psw.cc == cc true false true false) &&
      (t.psw.lc == 0x0104)) = true := by decide

theorem test_sth0_LS30 : runs 0xF810 0x0200 (start |>.setStatus 0x0030 |>.setReg 1 0xBEEF) (fun t =>
    (t.halfAt 0 0x0200 == 0xBEEF) && (t.psw.cc == cc false false false false) &&
      (t.psw.lc == 0x0104)) = true := by decide

theorem test_sth3_LS31 : runs 0xFB10 0x0200 (start |>.setReg 1 0xBEEF) (fun t =>
    (t.halfAt 3 0x0200 == 0xBEEF) && (t.psw.cc == cc false false false false) &&
      (t.psw.lc == 0x0104)) = true := by decide

theorem test_stm_LS32 : runs 0xD0E0 0x0300 (start |>.setReg 14 0x1111 |>.setReg 15 0x2222) (fun t =>
    (t.fullAt 0 0x0300 == 0x11112222) && (t.psw.cc == cc false false false false) &&
      (t.psw.lc == 0x0104)) = true := by decide

theorem test_stdp_LS33 : runs 0x5020 0x0300 (start |>.setReg 2 0x89AB |>.setReg 3 0xCDEF) (fun t =>
    (t.fullAt 0 0x0300 == 0x89ABCDEF) && (t.psw.cc == cc false false false false) &&
      (t.psw.lc == 0x0104)) = true := by decide

theorem test_ais_AR1 : runs 0x2611 0 (start |>.setReg 1 0x7FFF) (fun t =>
    (t.reg 1 == 0x8000) && (t.psw.cc == cc false true false true) && (t.psw.lc == 0x0102)) = true := by decide

theorem test_ahr_AR5 : runs 0x0A12 0 (start |>.setReg 1 0x8000 |>.setReg 2 0x8000) (fun t =>
    (t.reg 1 == 0x0000) && (t.psw.cc == cc true true false false) && (t.psw.lc == 0x0102)) = true := by decide

theorem test_ahi_AR7 : runs 0xCA30 0xFFFF (start |>.setReg 3 0x0010) (fun t =>
    (t.reg 3 == 0x000F) && (t.psw.cc == cc true false true false) && (t.psw.lc == 0x0104)) = true := by decide

theorem test_ah_AR9 : runs 0x4A10 0x0050 (start |>.setReg 1 0x0001 |>.setFull 0 0x0050 0x01234567
      |>.setFull 0 0x0054 0x89ABCDEF) (fun t =>
    (t.reg 1 == 0x0124) && (t.psw.cc == cc false false true false) && (t.psw.lc == 0x0104)) = true := by decide

theorem test_ahm_AR11 : runs 0x6110 0x0200 (start |>.setReg 1 0x0001 |>.setHalf 0 0x0200 0x7FFF) (fun t =>
    (t.halfAt 0 0x0200 == 0x8000) && (t.psw.cc == cc false true false true) &&
      (t.psw.lc == 0x0104)) = true := by decide

theorem test_achr_AR12 : runs 0x0E23 0 (start |>.setStatus 0x0008) (fun t =>
    (t.reg 2 == 0x0001) && (t.psw.cc == cc false false true false) && (t.psw.lc == 0x0102)) = true := by decide

theorem test_achr_AR14 : runs 0x0E23 0 (start |>.setStatus 0x0008 |>.setReg 2 0xFFFF) (fun t =>
    (t.reg 2 == 0x0000) && (t.psw.cc == cc true false false false) && (t.psw.lc == 0x0102)) = true := by decide

theorem test_ach_AR15 : runs 0x4E20 0x0054 (start |>.setStatus 0x0008 |>.setFull 0 0x0050 0x01234567
      |>.setFull 0 0x0054 0x89ABCDEF) (fun t =>
    (t.reg 2 == 0x89AC) && (t.psw.cc == cc false false false true) && (t.psw.lc == 0x0104)) = true := by decide

theorem test_adpr_AR16 : runs 0x1A24 0 (start |>.setReg 2 0x7FFF |>.setReg 3 0xFFFF |>.setReg 5 0x0001) (fun t =>
    (t.reg 2 == 0x8000) && (t.reg 3 == 0x0000) && (t.psw.cc == cc false true false true) &&
      (t.psw.lc == 0x0102)) = true := by decide

theorem test_adp_AR18 : runs 0x5A20 0x0050 (start |>.setReg 2 0x1111 |>.setReg 3 0x1111
      |>.setFull 0 0x0050 0x01234567 |>.setFull 0 0x0054 0x89ABCDEF) (fun t =>
    (t.reg 2 == 0x1234) && (t.reg 3 == 0x5678) && (t.psw.cc == cc false false true false) &&
      (t.psw.lc == 0x0104)) = true := by decide

theorem test_sis_AR20 : runs 0x2711 0 (start |>.setReg 1 0x8000) (fun t =>
    (t.reg 1 == 0x7FFF) && (t.psw.cc == cc false true true false) && (t.psw.lc == 0x0102)) = true := by decide

theorem test_shr_AR23 : runs 0x0B12 0 (start |>.setReg 1 0x7FFF |>.setReg 2 0xFFFF) (fun t =>
    (t.reg 1 == 0x8000) && (t.psw.cc == cc true true false true) && (t.psw.lc == 0x0102)) = true := by decide

theorem test_shi_AR24 : runs 0xCB10 0x0001 (start) (fun t =>
    (t.reg 1 == 0xFFFF) && (t.psw.cc == cc true false false true) && (t.psw.lc == 0x0104)) = true := by decide

theorem test_sh_AR25 : runs 0x4B10 0x0052 (start |>.setReg 1 0x4567 |>.setFull 0 0x0050 0x01234567
      |>.setFull 0 0x0054 0x89ABCDEF) (fun t =>
    (t.reg 1 == 0x0000) && (t.psw.cc == cc false false false false) && (t.psw.lc == 0x0104)) = true := by decide

theorem test_schr_AR26 : runs 0x0F23 0 (start |>.setStatus 0x0008 |>.setReg 2 0x0005 |>.setReg 3 0x0002) (fun t =>
    (t.reg 2 == 0x0002) && (t.psw.cc == cc false false true false) && (t.psw.lc == 0x0102)) = true := by decide

theorem test_sch_AR28 : runs 0x4F20 0x0050 (start |>.setStatus 0x0009 |>.setReg 2 0x0200
      |>.setFull 0 0x0050 0x01234567 |>.setFull 0 0x0054 0x89ABCDEF) (fun t =>
    (t.reg 2 == 0x00DC) && (t.psw.cc == cc false false true false) && (t.psw.lc == 0x0104)) = true := by decide

theorem test_sdpr_AR30 : runs 0x1B24 0 (start |>.setReg 2 0x8000 |>.setReg 5 0x0001) (fun t =>
    (t.reg 2 == 0x7FFF) && (t.reg 3 == 0xFFFF) && (t.psw.cc == cc false true true false) &&
      (t.psw.lc == 0x0102)) = true := by decide

theorem test_sdp_AR31 : runs 0x5B20 0x0050 (start |>.setFull 0 0x0050 0x01234567
      |>.setFull 0 0x0054 0x89ABCDEF) (fun t =>
    (t.reg 2 == 0xFEDC) && (t.reg 3 == 0xBA99) && (t.psw.cc == cc true false false true) &&
      (t.psw.lc == 0x0104)) = true := by decide

theorem test_mhr_AR32 : runs 0x0C25 0 (start |>.setStatus 0x000A |>.setReg 3 0xFFFE |>.setReg 5 0x0003) (fun t =>
    (t.reg 2 == 0xFFFF) && (t.reg 3 == 0xFFFA) && (t.psw.cc == cc true false true false) &&
      (t.psw.lc == 0x0102)) = true := by decide

theorem test_mh_AR36 : runs 0x4C20 0x0050 (start |>.setStatus 0x000A |>.setReg 3 0x0100
      |>.setFull 0 0x0050 0x01234567 |>.setFull 0 0x0054 0x89ABCDEF) (fun t =>
    (t.reg 2 == 0x0001) && (t.reg 3 == 0x2300) && (t.psw.cc == cc true false true false) &&
      (t.psw.lc == 0x0104)) = true := by decide

theorem test_mhur_AR37 : runs 0x9C25 0 (start |>.setStatus 0x000A |>.setReg 3 0xFFFF |>.setReg 5 0xFFFF) (fun t =>
    (t.reg 2 == 0xFFFE) && (t.reg 3 == 0x0001) && (t.psw.cc == cc true false true false) &&
      (t.psw.lc == 0x0102)) = true := by decide

theorem test_mhu_AR38 : runs 0xDC20 0x0056 (start |>.setStatus 0x000A |>.setReg 3 0x0002
      |>.setFull 0 0x0050 0x01234567 |>.setFull 0 0x0054 0x89ABCDEF) (fun t =>
    (t.reg 2 == 0x0001) && (t.reg 3 == 0x9BDE) && (t.psw.cc == cc true false true false) &&
      (t.psw.lc == 0x0104)) = true := by decide

theorem test_mdpr_AR39 : runs 0x1C48 0 (start |>.setStatus 0x000A |>.setReg 6 0xFFFF |>.setReg 7 0xFFFF
      |>.setReg 9 0x0002) (fun t =>
    (t.reg 4 == 0xFFFF) && (t.reg 5 == 0xFFFF) && (t.reg 7 == 0xFFFE) &&
      (t.psw.cc == cc true false true false) && (t.psw.lc == 0x0102)) = true := by decide

theorem test_mdp_AR42 : runs 0x5C40 0x0050 (start |>.setStatus 0x000A |>.setReg 7 0x0010
      |>.setFull 0 0x0050 0x01234567 |>.setFull 0 0x0054 0x89ABCDEF) (fun t =>
    (t.reg 6 == 0x1234) && (t.reg 7 == 0x5670) && (t.psw.cc == cc true false true false) &&
      (t.psw.lc == 0x0104)) = true := by decide

theorem test_dhr_AR44 : runs 0x0D25 0 (start |>.setStatus 0x000A |>.setReg 2 0xFFFF |>.setReg 3 0xFFF9
      |>.setReg 5 0x0002) (fun t =>
    (t.reg 3 == 0xFFFD) && (t.psw.cc == cc true false true false) && (t.psw.lc == 0x0102)) = true := by decide

theorem test_dhr_AR47 : runs 0x0D25 0 (start |>.setStatus 0x100A |>.setReg 3 0x0007
      |>.setFull 0 0x004C 0x00000800) (fun t =>
    (t.fullAt 0 0x0048 == 0x100A0102) && (t.psw.status == 0x0000) && (t.psw.lc == 0x0800)) = true := by decide

theorem test_dh_AR51 : runs 0x4D20 0x0050 (start |>.setStatus 0x000A |>.setReg 3 0x0246
      |>.setFull 0 0x0050 0x01234567 |>.setFull 0 0x0054 0x89ABCDEF) (fun t =>
    (t.reg 3 == 0x0002) && (t.psw.cc == cc true false true false) && (t.psw.lc == 0x0104)) = true := by decide

theorem test_ddpr_AR53 : runs 0x1D48 0 (start |>.setStatus 0x000A |>.setReg 4 0xFFFF |>.setReg 5 0xFFFF
      |>.setReg 6 0xFFFF |>.setReg 7 0xFF9C |>.setReg 9 0x0007) (fun t =>
    (t.reg 5 == 0xFFFE) && (t.reg 7 == 0xFFF2) && (t.psw.cc == cc true false true false) &&
      (t.psw.lc == 0x0102)) = true := by decide

theorem test_ddp_AR55 : runs 0x5D40 0x0050 (start |>.setStatus 0x000A |>.setReg 6 0x0246 |>.setReg 7 0x8ACE
      |>.setFull 0 0x0050 0x01234567 |>.setFull 0 0x0054 0x89ABCDEF) (fun t =>
    (t.reg 6 == 0x0000) && (t.reg 7 == 0x0002) && (t.psw.cc == cc true false true false) &&
      (t.psw.lc == 0x0104)) = true := by decide

theorem test_nhr_LC1 : runs 0x0412 0 (start |>.setReg 1 0xFF0F |>.setReg 2 0x0FF0) (fun t =>
    (t.reg 1 == 0x0F00) && t.psw.cc.g && !t.psw.cc.l && (t.psw.lc == 0x0102)) = true := by decide

theorem test_nhi_LC3 : runs 0xC410 0x8000 (start |>.setReg 1 0xFFFF) (fun t =>
    (t.reg 1 == 0x8000) && !t.psw.cc.g && t.psw.cc.l && (t.psw.lc == 0x0104)) = true := by decide

theorem test_nh_LC4 : runs 0x4410 0x0050 (start |>.setReg 1 0xFFFF |>.setFull 0 0x0050 0x01234567
      |>.setFull 0 0x0054 0x89ABCDEF) (fun t =>
    (t.reg 1 == 0x0123) && t.psw.cc.g && !t.psw.cc.l && (t.psw.lc == 0x0104)) = true := by decide

theorem test_ohr_LC5 : runs 0x0612 0 (start |>.setReg 1 0x8000 |>.setReg 2 0x0001) (fun t =>
    (t.reg 1 == 0x8001) && !t.psw.cc.g && t.psw.cc.l && (t.psw.lc == 0x0102)) = true := by decide

theorem test_ohi_LC6 : runs 0xC610 0x0000 (start) (fun t =>
    (t.reg 1 == 0x0000) && !t.psw.cc.g && !t.psw.cc.l && (t.psw.lc == 0x0104)) = true := by decide

theorem test_oh_LC7 : runs 0x4610 0x0050 (start |>.setReg 1 0x1000 |>.setFull 0 0x0050 0x01234567
      |>.setFull 0 0x0054 0x89ABCDEF) (fun t =>
    (t.reg 1 == 0x1123) && t.psw.cc.g && !t.psw.cc.l && (t.psw.lc == 0x0104)) = true := by decide

theorem test_xhr_LC8 : runs 0x0711 0 (start |>.setReg 1 0xABCD) (fun t =>
    (t.reg 1 == 0x0000) && !t.psw.cc.g && !t.psw.cc.l && (t.psw.lc == 0x0102)) = true := by decide

theorem test_xhi_LC9 : runs 0xC710 0xFFFF (start |>.setReg 1 0x00FF) (fun t =>
    (t.reg 1 == 0xFF00) && !t.psw.cc.g && t.psw.cc.l && (t.psw.lc == 0x0104)) = true := by decide

theorem test_xh_LC10 : runs 0x4710 0x0050 (start |>.setReg 1 0x0123 |>.setFull 0 0x0050 0x01234567
      |>.setFull 0 0x0054 0x89ABCDEF) (fun t =>
    (t.reg 1 == 0x0000) && !t.psw.cc.g && !t.psw.cc.l && (t.psw.lc == 0x0104)) = true := by decide

theorem test_thi_LC13 : runs 0xC330 0x8000 (start |>.setReg 3 0x8000) (fun t =>
    (t.reg 3 == 0x8000) && !t.psw.cc.g && t.psw.cc.l && (t.psw.lc == 0x0104)) = true := by decide

theorem test_clhr_LC16 : runs 0x0512 0 (start |>.setReg 1 0x8000 |>.setReg 2 0x0001) (fun t =>
    (t.reg 1 == 0x8000) && (t.reg 2 == 0x0001) && !t.psw.cc.c && (t.psw.lc == 0x0102)) = true := by decide

theorem test_clhi_LC17 : runs 0xC510 0x0010 (start |>.setReg 1 0x0010) (fun t =>
    (t.reg 1 == 0x0010) && !t.psw.cc.c && !t.psw.cc.g && !t.psw.cc.l && (t.psw.lc == 0x0104)) = true := by decide

theorem test_clh_LC18 : runs 0x4510 0x0050 (start |>.setReg 1 0x0122 |>.setFull 0 0x0050 0x01234567
      |>.setFull 0 0x0054 0x89ABCDEF) (fun t =>
    (t.reg 1 == 0x0122) && t.psw.cc.c && (t.psw.lc == 0x0104)) = true := by decide

theorem test_cldpr_LC20 : runs 0x1524 0 (start |>.setReg 2 0x8000 |>.setReg 4 0x7FFF |>.setReg 5 0xFFFF) (fun t =>
    (t.reg 2 == 0x8000) && (t.reg 3 == 0x0000) && (t.reg 4 == 0x7FFF) && !t.psw.cc.c && t.psw.cc.g &&
      !t.psw.cc.l && (t.psw.lc == 0x0102)) = true := by decide

theorem test_cldp_LC21 : runs 0x5520 0x0050 (start |>.setReg 2 0x0123 |>.setReg 3 0x4567
      |>.setFull 0 0x0050 0x01234567 |>.setFull 0 0x0054 0x89ABCDEF) (fun t =>
    (t.reg 2 == 0x0123) && (t.reg 3 == 0x4567) && !t.psw.cc.c && !t.psw.cc.g && !t.psw.cc.l &&
      (t.psw.lc == 0x0104)) = true := by decide

theorem test_chr_LC22 : runs 0x0912 0 (start |>.setReg 1 0x0001 |>.setReg 2 0xFFFF) (fun t =>
    (t.reg 1 == 0x0001) && (t.reg 2 == 0xFFFF) && t.psw.cc.g && !t.psw.cc.l &&
      (t.psw.lc == 0x0102)) = true := by decide

theorem test_chi_LC25 : runs 0xC910 0xFFFF (start |>.setReg 1 0xFFFF) (fun t =>
    (t.reg 1 == 0xFFFF) && !t.psw.cc.c && !t.psw.cc.g && !t.psw.cc.l && (t.psw.lc == 0x0104)) = true := by decide

theorem test_ch_LC26 : runs 0x4910 0x0054 (start |>.setReg 1 0x89AA |>.setFull 0 0x0050 0x01234567
      |>.setFull 0 0x0054 0x89ABCDEF) (fun t =>
    (t.reg 1 == 0x89AA) && t.psw.cc.c && !t.psw.cc.g && t.psw.cc.l && (t.psw.lc == 0x0104)) = true := by decide

theorem test_cdpr_LC27 : runs 0x1924 0 (start |>.setReg 2 0xFFFF |>.setReg 3 0xFFFF) (fun t =>
    (t.reg 2 == 0xFFFF) && (t.reg 3 == 0xFFFF) && (t.reg 4 == 0x0000) && !t.psw.cc.g && t.psw.cc.l &&
      (t.psw.lc == 0x0102)) = true := by decide

theorem test_cdp_LC29 : runs 0x5920 0x0054 (start |>.setReg 2 0x89AB |>.setReg 3 0xCDEF
      |>.setFull 0 0x0050 0x01234567 |>.setFull 0 0x0054 0x89ABCDEF) (fun t =>
    (t.reg 2 == 0x89AB) && (t.reg 3 == 0xCDEF) && !t.psw.cc.c && !t.psw.cc.g && !t.psw.cc.l &&
      (t.psw.lc == 0x0104)) = true := by decide

theorem test_lbr_BY1 : runs 0x9312 0 (start |>.setStatus 0x0005 |>.setReg 1 0xFFFF |>.setReg 2 0x12EF) (fun t =>
    (t.reg 1 == 0x00EF) && (t.psw.cc == cc false true false true) && (t.psw.lc == 0x0102)) = true := by decide

theorem test_lb_BY2 : runs 0xD310 0x0051 (start |>.setStatus 0x0005 |>.setReg 1 0xFFFF
      |>.setFull 0 0x0050 0x01234567 |>.setFull 0 0x0054 0x89ABCDEF) (fun t =>
    (t.reg 1 == 0x0023) && (t.psw.cc == cc false true false true) && (t.psw.lc == 0x0104)) = true := by decide

theorem test_stbr_BY4 : runs 0x9212 0 (start |>.setStatus 0x0005 |>.setReg 1 0x12EF |>.setReg 2 0xABCD) (fun t =>
    (t.reg 2 == 0xABEF) && (t.psw.cc == cc false true false true) && (t.psw.lc == 0x0102)) = true := by decide

theorem test_stb_BY5 : runs 0xD210 0x0201 (start |>.setStatus 0x0005 |>.setReg 1 0x12EF
      |>.setHalf 0 0x0200 0xAAAA) (fun t =>
    (t.byteAt 0 0x0201 == 0xEF) && (t.psw.cc == cc false true false true) && (t.psw.lc == 0x0104)) = true := by decide

theorem test_exbr_BY6 : runs 0x9412 0 (start |>.setStatus 0x0005 |>.setReg 2 0x1234) (fun t =>
    (t.reg 1 == 0x3412) && (t.psw.cc == cc false true false true) && (t.psw.lc == 0x0102)) = true := by decide

theorem test_clb_BY9 : runs 0xD410 0x0051 (start |>.setReg 1 0x0022 |>.setFull 0 0x0050 0x01234567
      |>.setFull 0 0x0054 0x89ABCDEF) (fun t =>
    (t.reg 1 == 0x0022) && t.psw.cc.c && (t.psw.lc == 0x0104)) = true := by decide

theorem test_slls_SH3 : runs 0x911F 0 (start |>.setReg 1 0x0003) (fun t =>
    (t.reg 1 == 0x8000) && (t.psw.cc == cc true false false true) && (t.psw.lc == 0x0102)) = true := by decide

theorem test_slhl_SH5 : runs 0xCD12 0x0001 (start |>.setReg 1 0x4000 |>.setReg 2 0x0002) (fun t =>
    (t.reg 1 == 0x0000) && (t.psw.cc == cc false false false false) && (t.psw.lc == 0x0104)) = true := by decide

theorem test_sll_SH8 : runs 0xED20 0x001F (start |>.setReg 3 0x0003) (fun t =>
    (t.reg 2 == 0x8000) && (t.reg 3 == 0x0000) && (t.psw.cc == cc true false false true) &&
      (t.psw.lc == 0x0104)) = true := by decide

theorem test_slql_SH10 : runs 0xE740 0x0020 (start |>.setReg 5 0x0001 |>.setReg 6 0x8000) (fun t =>
    (t.reg 4 == 0x8000) && (t.reg 5 == 0x0000) && (t.reg 6 == 0x0000) &&
      (t.psw.cc == cc true false false true) && (t.psw.lc == 0x0104)) = true := by decide

theorem test_srls_SH14 : runs 0x9011 0 (start |>.setReg 1 0x0001) (fun t =>
    (t.reg 1 == 0x0000) && (t.psw.cc == cc true false false false) && (t.psw.lc == 0x0102)) = true := by decide

theorem test_srhl_SH15 : runs 0xCC10 0x000F (start |>.setReg 1 0x8000) (fun t =>
    (t.reg 1 == 0x0001) && (t.psw.cc == cc false false true false) && (t.psw.lc == 0x0104)) = true := by decide

theorem test_srl_SH16 : runs 0xEC20 0x0010 (start |>.setReg 2 0x8000 |>.setReg 3 0x8000) (fun t =>
    (t.reg 2 == 0x0000) && (t.psw.cc == cc true false true false) && (t.psw.lc == 0x0104)) = true := by decide

theorem test_srql_SH17 : runs 0xE840 0x0021 (start |>.setReg 4 0x8000) (fun t =>
    (t.reg 4 == 0x0000) && (t.reg 6 == 0x4000) && (t.psw.cc == cc false false true false) &&
      (t.psw.lc == 0x0104)) = true := by decide

theorem test_rll_SH19 : runs 0xEB20 0x0000 (start |>.setReg 2 0x8000) (fun t =>
    (t.reg 2 == 0x8000) && (t.reg 3 == 0x0000) && (t.psw.cc == cc false false false true) &&
      (t.psw.lc == 0x0104)) = true := by decide

theorem test_rrl_SH20 : runs 0xEA20 0x0004 (start |>.setReg 2 0x1234 |>.setReg 3 0x5678) (fun t =>
    (t.reg 2 == 0x8123) && (t.reg 3 == 0x4567) && (t.psw.cc == cc false false false true) &&
      (t.psw.lc == 0x0104)) = true := by decide

theorem test_slha_SH22 : runs 0xCF10 0x0001 (start |>.setReg 1 0xC001) (fun t =>
    (t.reg 1 == 0x8002) && (t.psw.cc == cc true false false true) && (t.psw.lc == 0x0104)) = true := by decide

theorem test_sla_SH24 : runs 0xEF20 0x0004 (start |>.setReg 2 0x8123 |>.setReg 3 0x4567) (fun t =>
    (t.reg 2 == 0x9234) && (t.reg 3 == 0x5670) && (t.psw.cc == cc false false false true) &&
      (t.psw.lc == 0x0104)) = true := by decide

theorem test_slqa_SH25 : runs 0xE940 0x0001 (start |>.setReg 4 0x4000 |>.setReg 7 0x0001) (fun t =>
    (t.reg 4 == 0x0000) && (t.reg 7 == 0x0002) && (t.psw.cc == cc true false true false) &&
      (t.psw.lc == 0x0104)) = true := by decide

theorem test_srha_SH26 : runs 0xCE10 0x0002 (start |>.setReg 1 0x8004) (fun t =>
    (t.reg 1 == 0xE001) && (t.psw.cc == cc false false false true) && (t.psw.lc == 0x0104)) = true := by decide

theorem test_sra_SH29 : runs 0xEE20 0x0001 (start |>.setReg 2 0x8000 |>.setReg 3 0x0001) (fun t =>
    (t.reg 2 == 0xC000) && (t.reg 3 == 0x0000) && (t.psw.cc == cc true false false true) &&
      (t.psw.lc == 0x0104)) = true := by decide

theorem test_btc_BR1 : runs 0x4280 0x0200 (start |>.setStatus 0x000A) (fun t =>
    (t.psw.cc == cc true false true false) && (t.psw.lc == 0x0200)) = true := by decide

theorem test_bfc_BR2 : runs 0x43C0 0x0200 (start |>.setStatus 0x000A) (fun t =>
    (t.psw.cc == cc true false true false) && (t.psw.lc == 0x0104)) = true := by decide

theorem test_btbs_BR8 : runs 0x2082 0 (start |>.setStatus 0x0008 |>.setLc 0x0002) (fun t =>
    (t.psw.cc == cc true false false false) && (t.psw.lc == 0xFFFE)) = true := by decide

theorem test_btfs_BR9 : runs 0x2133 0 (start |>.setStatus 0x0003) (fun t =>
    (t.psw.cc == cc false false true true) && (t.psw.lc == 0x0106)) = true := by decide

theorem test_bfbs_BR11 : runs 0x2204 0 (start |>.setStatus 0x000F |>.setLc 0x0110) (fun t =>
    (t.psw.cc == cc true true true true) && (t.psw.lc == 0x0108)) = true := by decide

theorem test_bffs_BR12 : runs 0x2331 0 (start |>.setStatus 0x0000) (fun t =>
    (t.psw.cc == cc false false false false) && (t.psw.lc == 0x0102)) = true := by decide

theorem test_btcr_BR14 : runs 0x0285 0 (start |>.setStatus 0x0008 |>.setReg 5 0x0300) (fun t =>
    (t.reg 5 == 0x0300) && (t.psw.cc == cc true false false false) && (t.psw.lc == 0x0300)) = true := by decide

theorem test_bfcr_BR16 : runs 0x0305 0 (start |>.setStatus 0x000F |>.setReg 5 0x0300) (fun t =>
    (t.reg 5 == 0x0300) && (t.psw.cc == cc true true true true) && (t.psw.lc == 0x0300)) = true := by decide

theorem test_bxle_BR20 : runs 0xC140 0x0200 (start |>.setReg 4 0x0006 |>.setReg 5 0x0002 |>.setReg 6 0x0008) (fun t =>
    (t.reg 4 == 0x0008) && (t.psw.cc == cc false false false false) && (t.psw.lc == 0x0200)) = true := by decide

theorem test_bxh_BR22 : runs 0xC040 0x0200 (start |>.setReg 4 0x0006 |>.setReg 5 0xFFFE |>.setReg 6 0x0004) (fun t =>
    (t.reg 4 == 0x0004) && (t.psw.cc == cc false false false false) && (t.psw.lc == 0x0104)) = true := by decide

theorem test_balr_BR27 : runs 0x0155 0 (start |>.setReg 5 0x0300) (fun t =>
    (t.reg 5 == 0x0102) && (t.psw.cc == cc false false false false) && (t.psw.lc == 0x0300)) = true := by decide

theorem test_bal_BR29 : runs 0x41F2 0x0400 (start |>.setReg 2 0x0010) (fun t =>
    (t.reg 15 == 0x0104) && (t.psw.cc == cc false false false false) && (t.psw.lc == 0x0410)) = true := by decide

theorem test_ler_FP1 : runs 0x2802 0 (start |>.setFpReg 2 0x41001000) (fun t =>
    (t.fpReg 0 == 0x3F100000) && !t.psw.cc.v && t.psw.cc.g && !t.psw.cc.l && (t.psw.lc == 0x0102)) = true := by decide

theorem test_le_FP6 : runs 0x6800 0x0300 (start |>.setFull 0 0x0300 0xC1200000) (fun t =>
    (t.fpReg 0 == 0xC1200000) && !t.psw.cc.v && !t.psw.cc.g && t.psw.cc.l && (t.psw.lc == 0x0104)) = true := by decide

theorem test_ste_FP7 : runs 0x6000 0x0300 (start |>.setFpReg 0 0x00012345) (fun t =>
    (t.fullAt 0 0x0300 == 0x00012345) && (t.psw.cc == cc false false false false) &&
      (t.psw.lc == 0x0104)) = true := by decide

theorem test_aer_FP10 : runs 0x2A02 0 (start |>.setFpReg 0 0x41F00000 |>.setFpReg 2 0x41100000) (fun t =>
    (t.fpReg 0 == 0x42100000) && !t.psw.cc.v && t.psw.cc.g && !t.psw.cc.l && (t.psw.lc == 0x0102)) = true := by decide

theorem test_aer_FP11 : runs 0x2A02 0 (start |>.setFpReg 0 0x7FF00000 |>.setFpReg 2 0x7F100000) (fun t =>
    (t.fpReg 0 == 0x7FFFFFFF) && t.psw.cc.v && t.psw.cc.g && !t.psw.cc.l && (t.psw.lc == 0x0102)) = true := by decide

theorem test_ae_FP16 : runs 0x6A00 0x0300 (start |>.setFpReg 0 0x42100000 |>.setFull 0 0x0300 0x41100000) (fun t =>
    (t.fpReg 0 == 0x42110000) && !t.psw.cc.v && t.psw.cc.g && !t.psw.cc.l && (t.psw.lc == 0x0104)) = true := by decide

theorem test_ser_FP18 : runs 0x2B00 0 (start |>.setFpReg 0 0x41300000) (fun t =>
    (t.fpReg 0 == 0x00000000) && !t.psw.cc.v && !t.psw.cc.g && !t.psw.cc.l &&
      (t.psw.lc == 0x0102)) = true := by decide

theorem test_se_FP19 : runs 0x6B00 0x0300 (start |>.setFpReg 0 0x41100000 |>.setFull 0 0x0300 0x41200000) (fun t =>
    (t.fpReg 0 == 0xC1100000) && !t.psw.cc.v && !t.psw.cc.g && t.psw.cc.l && (t.psw.lc == 0x0104)) = true := by decide

theorem test_cer_FP21 : runs 0x2902 0 (start |>.setFpReg 0 0x41200000 |>.setFpReg 2 0xC1200000) (fun t =>
    !t.psw.cc.c && t.psw.cc.g && !t.psw.cc.l && (t.psw.lc == 0x0102)) = true := by decide

theorem test_ce_FP23 : runs 0x6900 0x0300 (start |>.setFpReg 0 0xC1200000 |>.setFull 0 0x0300 0xC1100000) (fun t =>
    t.psw.cc.c && !t.psw.cc.g && t.psw.cc.l && (t.psw.lc == 0x0104)) = true := by decide

theorem test_mer_FP25 : runs 0x2C02 0 (start |>.setFpReg 0 0xC1200000 |>.setFpReg 2 0x41300000) (fun t =>
    (t.fpReg 0 == 0xC1600000) && !t.psw.cc.v && !t.psw.cc.g && t.psw.cc.l && (t.psw.lc == 0x0102)) = true := by decide

theorem test_me_FP27 : runs 0x6C00 0x0300 (start |>.setFpReg 0 0x7F800000 |>.setFull 0 0x0300 0x41100000) (fun t =>
    (t.fpReg 0 == 0x7FFFFFFF) && t.psw.cc.v && (t.psw.lc == 0x0104)) = true := by decide

theorem test_der_FP33 : runs 0x2D00 0 (start |>.setFpReg 0 0xC5123456) (fun t =>
    (t.fpReg 0 == 0x41100000) && !t.psw.cc.v && t.psw.cc.g && !t.psw.cc.l && (t.psw.lc == 0x0102)) = true := by decide

theorem test_de_FP35 : runs 0x6D00 0x0300 (start |>.setStatus 0x0400 |>.setFpReg 0 0x41100000
      |>.setFull 0 0x002C 0x00000900 |>.setFull 0 0x0300 0x00000000) (fun t =>
    (t.fullAt 0 0x0028 == 0x040C0104) && (t.psw.status == 0x0000) && (t.psw.lc == 0x0900)) = true := by decide

theorem test_lfr_FP39 : runs 0x3802 0 (start |>.setStatus 0x000A |>.setFpReg 0 0x11111111
      |>.setFpReg 2 0x22222222) (fun t =>
    (t.psw.cc == cc true false true false) && (t.psw.lc == 0x0102)) = true := by decide

theorem test_af_FP40 : runs 0x7A00 0x0301 (start |>.setStatus 0x000A) (fun t =>
    (t.psw.cc == cc true false true false) && (t.psw.lc == 0x0104)) = true := by decide

theorem test_lpsw_SC1 : runs 0xC200 0x0200 (start |>.setFull 0 0x0200 0x71050400) (fun t =>
    (t.psw.status == 0x7105) && (t.psw.lc == 0x0400)) = true := by decide

theorem test_lpsw_SC3 : runs 0xC200 0x0200 (start |>.setStatus 0x0100 |>.setFull 0 0x0034 0x00000900
      |>.setFull 0 0x0200 0x71050400) (fun t =>
    (t.fullAt 0 0x0030 == 0x01000100) && (t.psw.status == 0x0000) && (t.psw.lc == 0x0900)) = true := by decide

theorem test_epor_SC5 : runs 0x2E30 0 (start |>.setStatus 0x7004 |>.setReg 3 0x0030) (fun t =>
    (t.reg 3 == 0x7004) && (t.psw.status == 0x7034) && (t.psw.lc == 0x0102)) = true := by decide

theorem test_eppr_SC6 : runs 0x2F40 0 (start |>.setStatus 0x7004 |>.setReg 4 0x0050 |>.setReg 5 0x2000) (fun t =>
    (t.reg 4 == 0x7004) && (t.reg 5 == 0x0102) && (t.psw.status == 0x7054) &&
      (t.psw.lc == 0x2000)) = true := by decide

theorem test_epsr_SC8 : runs 0x9511 0 (start |>.setStatus 0x7004 |>.setReg 1 0xFFFF) (fun t =>
    (t.reg 1 == 0x7004) && (t.psw.cc == cc false true false false) && (t.psw.lc == 0x0102)) = true := by decide

theorem test_sint_SC10 : runs 0xE200 0x0005 (start |>.setStatus 0x5000 |>.setLc 0x0200
      |>.setHalf 0 0x00DA 0x0400 |>.setHalf 0 0x0404 0x0000) (fun t =>
    (t.fullAt 0 0x0400 == 0x50000204) && (t.psw.status == 0x0000) && (t.psw.lc == 0x0406)) = true := by decide

theorem test_svc_SC13 : runs 0xE1F2 0x0300 (start |>.setStatus 0x0005 |>.setReg 2 0x0010
      |>.setHalf 0 0x009A 0x7008 |>.setHalf 0 0x00BA 0x0A00) (fun t =>
    (t.fullAt 0 0x0094 == 0x03100005) && (t.halfAt 0 0x0098 == 0x0104) && (t.psw.status == 0x7008) &&
      (t.psw.lc == 0x0A00)) = true := by decide

theorem test_sesb_SC14 : runs 0xE400 0x4000 (start) (fun t =>
    (t.psw.status == 0x4000) && (t.psw.lc == 0x0104)) = true := by decide

theorem test_resb_SC17 : runs 0xE300 0xFF00 (start |>.setStatus 0x7EC5) (fun t =>
    (t.psw.status == 0x00C5) && (t.psw.lc == 0x0104)) = true := by decide

theorem test_air_IO1 : runs 0x9F12 0 ({ (start) with requests := [⟨0, 0x23, 0x00⟩] }) (fun t =>
    (t.reg 1 == 0x0023) && (t.psw.cc == cc false false false false) && (t.psw.lc == 0x0102)) = true := by decide

theorem test_ai_IO2 : runs 0xDF10 0x0400 ({ (start) with requests := [⟨0, 0x23, 0x04⟩] }) (fun t =>
    (t.reg 1 == 0x0023) && (t.byteAt 0 0x0400 == 0x04) && (t.psw.cc == cc false true false false) &&
      (t.psw.lc == 0x0104)) = true := by decide

theorem test_ssr_IO3 : runs 0x9D12 0 ({ (start |>.setReg 1 0x0023) with replies := [⟨0x23, false, false, 0x0000,
      0x08⟩] }) (fun t =>
    (t.reg 2 == 0x0008) && (t.psw.cc == cc true false false false) && (t.psw.lc == 0x0102)) = true := by decide

theorem test_ss_IO5 : runs 0xDD10 0x0401 ({ (start |>.setReg 1 0x0023) with replies := [⟨0x23, false, false,
      0x0000, 0x01⟩] }) (fun t =>
    (t.byteAt 0 0x0401 == 0x01) && (t.psw.cc == cc false false false true) &&
      (t.psw.lc == 0x0104)) = true := by decide

theorem test_ocr_IO8 : runs 0x9E12 0 ({ (start |>.setReg 1 0x0023 |>.setReg 2 0x0040) with replies := [⟨0x23,
      false, true, 0x0000, 0x00⟩] }) (fun t =>
    t.psw.cc.v && (t.psw.lc == 0x0102)) = true := by decide

theorem test_oc_IO9 : runs 0xDE10 0x0079 ({ (start |>.setReg 1 0xFF23
      |>.setHalf 0 0x0078 0x0598) with replies := [⟨0x23, false, false, 0x0000, 0x00⟩] }) (fun t =>
    !t.psw.cc.v && (t.psw.lc == 0x0104)) = true := by decide

theorem test_rdr_IO10 : runs 0x9B12 0 ({ (start |>.setReg 1 0x0023 |>.setReg 2 0xFFFF) with replies := [⟨0x23,
      false, false, 0x0041, 0x00⟩] }) (fun t =>
    (t.reg 2 == 0x0041) && !t.psw.cc.v && (t.psw.lc == 0x0102)) = true := by decide

theorem test_rd_IO11 : runs 0xDB10 0x0401 ({ (start |>.setReg 1 0x0023) with replies := [⟨0x23, false, false,
      0x0041, 0x00⟩] }) (fun t =>
    (t.byteAt 0 0x0401 == 0x41) && !t.psw.cc.v && (t.psw.lc == 0x0104)) = true := by decide

/-- On a time-out nothing is written (93_implementation_defined.md U15), nor is memory needed there (log 49). -/
theorem test_rd_timeout : runs 0xDB10 0x0401 ({ ((lacking 0x0401).setReg 1 0x0023) with replies := [⟨0x23, true,
      false, 0x0041, 0x00⟩] }) (fun t => t.psw.cc.v && (t.psw.lc == 0x0104)) = true := by decide


theorem test_rdr_timeout : runs 0x9B12 0 ({ (start |>.setReg 1 0x0023 |>.setReg 2 0xFFFF) with replies := [⟨0x23,
      true, false, 0x0041, 0x00⟩] }) (fun t =>
    (t.reg 2 == 0xFFFF) && t.psw.cc.v && (t.psw.lc == 0x0102)) = true := by decide

theorem test_rh_timeout : runs 0xD910 0x0400 ({ (start |>.setReg 1 0x0030 |>.setHalf 0 0x0400 0xBEEF) with
      replies := [⟨0x30, true, false, 0x1234, 0x00⟩] }) (fun t =>
    (t.halfAt 0 0x0400 == 0xBEEF) && t.psw.cc.v && (t.psw.lc == 0x0104)) = true := by decide

theorem test_wdr_IO13 : runs 0x9A12 0 ({ (start |>.setReg 1 0x0023 |>.setReg 2 0x1241) with replies := [⟨0x23,
      true, false, 0x0000, 0x00⟩] }) (fun t =>
    t.psw.cc.v && (t.psw.lc == 0x0102)) = true := by decide

theorem test_wd_IO14 : runs 0xDA10 0x0401 ({ (start |>.setReg 1 0x0023
      |>.setHalf 0 0x0400 0x0041) with replies := [⟨0x23, false, false, 0x0000, 0x00⟩] }) (fun t =>
    !t.psw.cc.v && (t.psw.lc == 0x0104)) = true := by decide

theorem test_rhr_IO15 : runs 0x9912 0 ({ (start |>.setReg 1 0x0030) with replies := [⟨0x30, false, false, 0x1234,
      0x00⟩] }) (fun t =>
    (t.reg 2 == 0x1234) && !t.psw.cc.v && (t.psw.lc == 0x0102)) = true := by decide

theorem test_rh_IO16 : runs 0xD910 0x0400 ({ (start |>.setReg 1 0x0030) with replies := [⟨0x30, false, false,
      0x1234, 0x00⟩] }) (fun t =>
    (t.halfAt 0 0x0400 == 0x1234) && !t.psw.cc.v && (t.psw.lc == 0x0104)) = true := by decide

theorem test_whr_IO18 : runs 0x9812 0 ({ (start |>.setReg 1 0x0030 |>.setReg 2 0x1234) with replies := [⟨0x30,
      false, false, 0x0000, 0x00⟩] }) (fun t =>
    !t.psw.cc.v && (t.psw.lc == 0x0102)) = true := by decide

theorem test_wh_IO19 : runs 0xD810 0x0400 ({ (start |>.setReg 1 0x0030
      |>.setHalf 0 0x0400 0x1234) with replies := [⟨0x30, false, false, 0x0000, 0x00⟩] }) (fun t =>
    !t.psw.cc.v && (t.psw.lc == 0x0104)) = true := by decide

theorem test_al_IO20 : runs 0xD500 0x0082 ({ (start |>.setHalf 0 0x0078 0x0598) with replies := [⟨0x05, false,
      false, 0x0000, 0x00⟩, ⟨0x05, false, false, 0x0000, 0x00⟩, ⟨0x05, false, false, 0x0000, 0x00⟩, ⟨0x05, false,
      false, 0x004A, 0x00⟩, ⟨0x05, false, false, 0x0000, 0x00⟩, ⟨0x05, false, false, 0x004B, 0x00⟩] }) (fun t =>
    (t.halfAt 0 0x0080 == 0x4A00) && (t.byteAt 0 0x0082 == 0x4B) && (t.psw.cc == cc false false false false) &&
      (t.bus == [.readByte 5, .readByte 5, .readByte 5, .readByte 5, .readByte 5, .command 5 0x98]) &&
      (t.psw.lc == 0x0104)) = true := by decide

theorem test_al_IO22 : runs 0xD500 0x0082 ({ (start |>.setHalf 0 0x0078 0x0598) with replies := [⟨0x05, false,
      false, 0x0000, 0x00⟩, ⟨0x05, false, false, 0x004A, 0x00⟩, ⟨0x05, false, false, 0x0000, 0x02⟩] }) (fun t =>
    (t.byteAt 0 0x0080 == 0x4A) && (t.psw.cc == cc false false true false) &&
      (t.psw.lc == 0x0104)) = true := by decide

theorem test_rbr_IO26 : runs 0x9712 0 ({ (start |>.setReg 1 0x0023 |>.setReg 2 0x0400
      |>.setReg 3 0x0402) with replies := [⟨0x23, false, false, 0x0041, 0x00⟩, ⟨0x23, true, false, 0x0000,
      0x00⟩] }) (fun t =>
    (t.byteAt 0 0x0400 == 0x41) && t.psw.cc.v && (t.psw.lc == 0x0102)) = true := by decide

theorem test_rb_IO28 : runs 0xD710 0x0300 ({ (start |>.setReg 1 0x0023
      |>.setFull 0 0x0300 0x04000401) with replies := [⟨0x23, false, false, 0x0041, 0x00⟩, ⟨0x23, false, false,
      0x0042, 0x00⟩] }) (fun t =>
    (t.halfAt 0 0x0400 == 0x4142) && (t.psw.cc == cc false false false false) &&
      (t.psw.lc == 0x0104)) = true := by decide

theorem test_wbr_IO30 : runs 0x9612 0 ({ (start |>.setReg 1 0x0023 |>.setReg 2 0x0400 |>.setReg 3 0x0401
      |>.setHalf 0 0x0400 0x4142) with replies := [⟨0x23, false, false, 0x0000, 0x00⟩, ⟨0x23, false, false, 0x0000,
      0x08⟩] }) (fun t =>
    (t.psw.cc == cc true false false false) && (t.psw.lc == 0x0102)) = true := by decide

theorem test_wb_IO31 : runs 0xD610 0x0300 ({ (start |>.setReg 1 0x0023 |>.setFull 0 0x0300 0x04000400
      |>.setHalf 0 0x0400 0x4100) with replies := [⟨0x23, false, false, 0x0000, 0x00⟩] }) (fun t =>
    (t.psw.cc == cc false false false false) && (t.psw.lc == 0x0104)) = true := by decide

theorem test_atl_LI1 : runs 0x6410 0x0400 (start |>.setReg 1 0x1111 |>.setFull 0 0x0400 0x04000000) (fun t =>
    (t.byteAt 0 0x0401 == 0x01) && (t.byteAt 0 0x0402 == 0x03) && (t.halfAt 0 0x040A == 0x1111) &&
      (t.psw.cc == cc false false false false) && (t.psw.lc == 0x0104)) = true := by decide

theorem test_abl_LI4 : runs 0x6520 0x0400 (start |>.setReg 2 0x2222 |>.setFull 0 0x0400 0x04030003) (fun t =>
    (t.byteAt 0 0x0401 == 0x04) && (t.byteAt 0 0x0403 == 0x00) && (t.halfAt 0 0x040A == 0x2222) &&
      (t.psw.cc == cc false false false false) && (t.psw.lc == 0x0104)) = true := by decide

/-- Row LI4 with no memory at the pointer that ABL does not access (49_list_trig_augment.md R401). -/
theorem test_abl_header : runs 0x6520 0x0400 ((lacking 0x0402).setReg 2 0x2222 |>.setFull 0 0x0400 0x04030003) (fun t =>
    (t.byteAt 0 0x0401 == 0x04) && (t.byteAt 0 0x0403 == 0x00) && (t.halfAt 0 0x040A == 0x2222)) = true := by decide

theorem test_rtl_LI5 : runs 0x6630 0x0400 (start |>.setFull 0 0x0400 0x04020301 |>.setHalf 0 0x0404 0x2222
      |>.setHalf 0 0x040A 0x1111) (fun t =>
    (t.reg 3 == 0x1111) && (t.byteAt 0 0x0401 == 0x01) && (t.byteAt 0 0x0402 == 0x00) &&
      (t.psw.cc == cc false false true false) && (t.psw.lc == 0x0104)) = true := by decide

theorem test_rbl_LI8 : runs 0x6740 0x0400 (start |>.setFull 0 0x0400 0x04020300 |>.setHalf 0 0x040A 0x1111) (fun t =>
    (t.reg 4 == 0x1111) && (t.byteAt 0 0x0401 == 0x01) && (t.byteAt 0 0x0403 == 0x03) &&
      (t.psw.cc == cc false false true false) && (t.psw.lc == 0x0104)) = true := by decide

theorem test_atl_LI3 : runs 0x6410 0x0400 (start |>.setReg 1 0x3333 |>.setFull 0 0x0400 0x04040000) (fun t =>
    (t.reg 1 == 0x3333) && (t.psw.cc == cc false true false false) && (t.psw.lc == 0x0104)) = true := by decide

theorem test_rtl_LI7 : runs 0x6630 0x0400 (start |>.setReg 3 0x5555 |>.setFull 0 0x0400 0x04000001) (fun t =>
    (t.reg 3 == 0x5555) && (t.psw.cc == cc false true false false) && (t.psw.lc == 0x0104)) = true := by decide

/-- The ratio of two neighbours whose arc sine lies 2^-26 above an integer: the bounds are still those of the reals. -/
theorem test_arcSine_near : (arcSine 0x7F850F81 0x7F850F80).floor = 0x3FFFAE5C ∧
    (arcSine 0x7F850F81 0x7F850F80).ceil = 0x3FFFAE5D := by decide +kernel

theorem test_asnr_TR11 : runs 0x8462 0 (start |>.setPair 2 0x00000001 |>.setPair 4 0x00000002
      |>.setPair 6 0x12345678) (fun t =>
    (t.pair 2 == 0x00000001) && (t.pair 4 == 0x00000002) && (t.pair 6 == 0x12345678) && t.psw.cc.v &&
      (t.psw.lc == 0x0102)) = true := by decide

theorem test_atn_TR18 : runs 0xF260 0x0300 (start |>.setFull 0 0x0300 0x00000000
      |>.setFull 0 0x0304 0x00000000 |>.setPair 6 0x11111111 |>.setPair 8 0x22222222) (fun t =>
    (t.pair 6 == 0x00000000) && (t.pair 8 == 0x00000000) && !t.psw.cc.v && (t.psw.lc == 0x0104)) = true := by decide

theorem test_sqd_TR24 : runs 0xF360 0x0300 (start |>.setFull 0 0x0300 0x00000007
      |>.setFull 0 0x0304 0xFFFFFFF9 |>.setPair 6 0x11111111) (fun t =>
    (t.pair 6 == 0x00000000) && !t.psw.cc.v && (t.psw.lc == 0x0104)) = true := by decide

theorem test_lchr_AU3 : runs 0x1212 0 (start |>.setReg 2 0x8000) (fun t =>
    (t.reg 1 == 0x8000) && (t.psw.cc == cc true true false true) && (t.psw.lc == 0x0102)) = true := by decide

theorem test_lch_AU5 : runs 0x5310 0x0300 (start |>.setHalf 0 0x0300 0xFFFE) (fun t =>
    (t.reg 1 == 0x0002) && (t.psw.cc == cc true false true false) && (t.psw.lc == 0x0104)) = true := by decide

theorem test_lcnhr_AU6 : runs 0x1012 0 (start |>.setReg 2 0x8005) (fun t =>
    (t.reg 1 == 0xFFFB) && (t.psw.cc == cc false false false true) && (t.psw.lc == 0x0102)) = true := by decide

theorem test_lcnh_AU10 : runs 0x5110 0x0300 (start |>.setHalf 0 0x0300 0x8000) (fun t =>
    (t.psw.cc == cc true false false false) && (t.psw.lc == 0x0104)) = true := by decide

theorem test_lavr_AU11 : runs 0x1112 0 (start |>.setReg 2 0xFFFB) (fun t =>
    (t.reg 1 == 0x0005) && (t.psw.cc == cc true false true false) && (t.psw.lc == 0x0102)) = true := by decide

theorem test_lav_AU14 : runs 0x5210 0x0300 (start |>.setHalf 0 0x0300 0x8000) (fun t =>
    (t.reg 1 == 0x8000) && (t.psw.cc == cc true true false true) && (t.psw.lc == 0x0104)) = true := by decide

theorem test_ecpr_AU16 : runs 0x8012 0 ({ (start |>.setReg 2 0xFFFF) with cpr := 0x0010 }) (fun t =>
    (t.reg 1 == 0x0010) && (t.cpr == 0x001C) && (t.psw.cc == cc false false false false) &&
      (t.psw.lc == 0x0102)) = true := by decide

theorem test_dc_EX1 : runs 0x0000 0 (start |>.setStatus 0x7005 |>.setFull 0 0x0034 0x00000900) (fun t =>
    (t.fullAt 0 0x0030 == 0x70050100) && (t.psw.status == 0x0000) && (t.psw.lc == 0x0900)) = true := by decide

theorem test_mhur_EX5 : runs 0x9C25 0 (start |>.setStatus 0x0100 |>.setReg 3 0x0002 |>.setReg 5 0x0003) (fun t =>
    (t.reg 3 == 0x0006) && (t.psw.cc == cc false false false false) && (t.psw.lc == 0x0102)) = true := by decide

/-- Rows LS14, LS25, SC4, SC11, LI10 and FP15: refused by name. -/
theorem test_refusals : refuses (start.placeHalves 0x4810 0x0051) .oddAddress = true ∧
    refuses (start.placeHalves 0x1834 0) .registerField = true ∧
    refuses (start.placeHalves 0xC210 0x0200) .mustBeZero = true ∧
    refuses ((start.setHalf 0 0x00DA 0x0401).placeHalves 0xE200 0x0005) .channelService = true ∧
    refuses ((start.setFull 0 0x0400 0x04050000).placeHalves 0x6410 0x0400) .listHeader = true ∧
    refuses (start.setLc 0x0101) .oddFetch = true ∧
    refuses ((start.setFpReg 0 0x41100000 |>.setFpReg 2 0x40012345).placeHalves 0x2A02 0) .notNormalised = true := by
  decide

/-- 20_memory.md R61: where there is no memory an operand, an instruction and the termination queue are refused. -/
theorem test_absent : refuses (small.placeHalves 0x4810 0x0400) .absentMemory = true ∧
    refuses (small.setLc 0x0400) .absentMemory = true ∧
    refuses (small.setStatus 0x0200 |>.setHalf 0 0x0080 0x0400) .absentMemory = true ∧
    goes (small.placeHalves 0x4810 0x03FE) (fun t => t.psw.lc == 0x0104) = true := by decide

/-- Row SC3: a privileged instruction in Protect Mode. -/
theorem test_protect : runs 0xC200 0x0200 (start.setStatus 0x0100 |>.setFull 0 0x0034 0x00000900) (fun t =>
    (t.fullAt 0 0x0030 == 0x01000100) && (t.psw.lc == 0x0900) && (t.psw.status == 0)) = true := by decide

/-- Row AS1. -/
theorem test_external : goes { (start.setStatus 0x4005).setFull 0 0x0044 0x00000900 with
    requests := [⟨0, 0x23, 0⟩] } (fun t =>
    (t.fullAt 0 0x0040 == 0x40050100) && (t.psw.lc == 0x0900) && (t.requests.length == 1)) = true := by decide

/-- Row AS2. -/
theorem test_immediate : goes { (start.setStatus 0x4800).setHalf 0 0x00DA 0x0400 with
    requests := [⟨0, 0x05, 0x7F⟩] } (fun t =>
    (t.fullAt 0 0x0400 == 0x48000100) && (t.psw.lc == 0x0406) && t.requests.isEmpty) = true := by decide

/-- Row AS6: a parity error on an operand read. -/
theorem test_malfunction : goes { (start.setStatus 0x2000).setFull 0 0x003C 0x00000900 with
    arrivals := [[.parityOperand]] } (fun t =>
    (t.fullAt 0 0x0038 == 0x20000100) && (t.psw.status == 0x0004) && (t.psw.lc == 0x0900)) = true := by decide

/-- Row AS10. -/
theorem test_channel_termination : goes (start.setStatus 0x0200 |>.setHalf 0 0x0080 0x0500
    |>.setFull 0 0x0500 0x04010303 |>.setFull 0 0x0086 0x00000900) (fun t =>
    (t.fullAt 0 0x0082 == 0x02000100) && (t.psw.lc == 0x0900) && (t.fullAt 0 0x0500 == 0x04010303)) = true := by decide

/-- Row AS13: a full queue. -/
theorem test_queue_overflow : goes { (start.setStatus 0xF000 |>.setHalf 0 0x0080 0x0500
    |>.setFull 0 0x0500 0x02020000 |>.setFull 0 0x0090 0x80000A00) with
    arrivals := [[.channelTerminate 0x1234 .top]] } (fun t =>
    (t.halfAt 0 0x008A == 0x1234) && (t.fullAt 0 0x008C == 0xF0000100) && (t.psw.lc == 0x0A00)) = true := by decide

/-- Rows AS14, AS17: a pointer joins the queue of a waiting processor, which goes on waiting. -/
theorem test_queue_entry : goes { (start.setStatus 0x8000 |>.setHalf 0 0x0080 0x0500
    |>.setFull 0 0x0500 0x04000000) with arrivals := [[.channelTerminate 0x1234 .top]] } (fun t =>
    (t.fullAt 0 0x0500 == 0x04010300) && (t.halfAt 0 0x050A == 0x1234) && (t.psw.lc == 0x0100)) = true := by decide

/-- Row AS21: the power goes down, and comes back with memory valid. -/
theorem test_power_down : goes { (start.setStatus 0x2105 |>.setReg 15 0x111F |>.setHalf 0 0x0022 0x0600) with
    arrivals := [[.powerDown, .powerRestore true]] } (fun t =>
    (t.halfAt 0 0x061E == 0x111F) && (t.fullAt 0 0x0024 == 0x21050100) && (t.power == .restart)) = true := by decide

/-- Row AS22: Restart. -/
theorem test_restart : goes { (start.setHalf 0 0x0022 0x0600 |>.setHalf 0 0x061E 0x111F |>.setFull 0 0x0024 0x21050100
    |>.setFull 0 0x003C 0x80000900) with power := .restart } (fun t =>
    (t.fullAt 0 0x0038 == 0x21050100) && (t.reg 15 == 0x111F) && (t.psw.lc == 0x0900) && (t.psw.status == 0x8000) &&
      (t.power == .running)) = true := by decide

/-- 60_exceptions.md R482: Start-up and program load. -/
theorem test_modes :
    goes { start with arrivals := [[.powerOff, .powerRestore true]] } (fun t =>
      (t.power == .startUp) && !t.memOperational) = true ∧
    goes { start with power := .startUp, memOperational := false } (fun t =>
      (t.power == .running) && t.memOperational) = true ∧
    goes { start with arrivals := [[.programLoad]] } (fun t => t.power == .programLoad) = true := by decide

/-- The clocks and a DMA write. -/
theorem test_clock : goes { (start.setStatus 0x8000) with arrivals := [[.tick, .dmaWrite 3 0xFFFF 0x5A]] } (fun t =>
    (t.rtc == 1) && (t.etc == -1) && (t.byteAt 3 0xFFFF == 0x5A)) = true := by decide

/-! ### Witnesses: for each obligation with hypotheses, states and operands that meet them -/

theorem witness_LoadHalfword : start.halfOk 0 (start.ea 0 0xFFFE) ∧ start.halfOk 3 (start.ea 0 0x0000) := by
  unfold State.halfOk State.byteOk isEven; decide

theorem witness_FullwordTransfers : isEven (14 : Nibble) ∧ isEven (0 : Nibble) ∧ start.fullOk 0 (start.ea 0 0xFFFE) ∧
    Memory.wf start.mem = true := by
  unfold State.fullOk State.halfOk State.byteOk isEven; decide

theorem witness_StoreHalfword : Memory.wf (start.setHalf 3 0xFFFE 0x00FF).mem = true ∧
    start.halfOk 3 (start.ea 0 0xFFFE) := by
  unfold State.halfOk State.byteOk isEven; decide

theorem witness_MultipleTransfer : Memory.wf start.mem = true ∧
    start.halvesOk 0 (16 - (0 : Nibble).toNat) (start.ea 0 0xFFFE) ∧ (0 : Nibble).toNat ≤ (15 : Nibble).toNat ∧
    (15 : Nibble).toNat ≤ (15 : Nibble).toNat := by
  unfold State.halvesOk State.halfOk State.byteOk isEven; decide

theorem witness_AddHalfword : Memory.wf start.mem = true ∧ start.halfOk 0 (start.ea 0 0xFFFE) := by
  unfold State.halfOk State.byteOk isEven; decide

theorem witness_SubtractHalfword : start.halfOk 0 (start.ea 0 0x0000) := by
  unfold State.halfOk State.byteOk isEven; decide

theorem witness_AddSubtractFullword : isEven (0 : Nibble) ∧ isEven (14 : Nibble) ∧
    start.fullOk 0 (start.ea 0 0xFFFE) := by
  unfold State.fullOk State.halfOk State.byteOk isEven; decide

theorem witness_CarryHalfword : start.halfOk 0 ((start.setReg 2 0xFFFF).ea 2 0x0001) := by
  unfold State.halfOk State.byteOk isEven; decide

theorem witness_Multiply : isEven (14 : Nibble) ∧ isEven (12 : Nibble) ∧ (12 : Nibble).toNat ≤ 12 ∧
    isEven (0 : Nibble) ∧ start.fullOk 0 (start.ea 0 0xFFFE) := by
  unfold State.fullOk State.halfOk State.byteOk isEven; decide

theorem witness_Divide : isEven (2 : Nibble) ∧ start.fullOk 0 (start.ea 0 0xFFFE) ∧ isEven (12 : Nibble) ∧
    (12 : Nibble).toNat ≤ 12 ∧
    quotientFits 16 ((start.setPair 2 0xFFFF8001).pair 2).toInt (1 : Word).toInt ∧
    quotientFits 16 ((start.setPair 2 0x00007FFF).pair 2).toInt (1 : Word).toInt ∧
    quotientFits 32 ((start.setQuad 12 0x7FFFFFFF).quad 12).toInt (1 : Full).toInt := by
  unfold State.fullOk State.halfOk State.byteOk isEven quotientFits; decide

theorem witness_DivideFault : Memory.wf start.mem = true ∧ isEven (2 : Nibble) ∧ isEven (12 : Nibble) ∧
    divideOverflows 16 ((start.setPair 2 7).pair 2).toInt (0 : Word).toInt ∧
    divideOverflows 16 ((start.setPair 2 0x00008000).pair 2).toInt (1 : Word).toInt ∧
    divideOverflows 16 ((start.setPair 2 0xFFFF7FFF).pair 2).toInt (1 : Word).toInt ∧
    divideOverflows 32 ((start.setQuad 12 0x80000000).quad 12).toInt (1 : Full).toInt ∧
    (start.setStatus 0x1000).psw.fdfEn = true ∧ start.psw.fdfEn = false ∧ start.fullOk 0 (start.ea 0 0xFFFE) := by
  unfold State.fullOk State.halfOk State.byteOk isEven divideOverflows tooWide; decide

theorem witness_LogicalHalfword : start.halfOk 0 (start.ea 0 0xFFFE) := by
  unfold State.halfOk State.byteOk isEven; decide

theorem witness_CompareLogical : isEven (14 : Nibble) ∧ isEven (0 : Nibble) ∧ start.fullOk 0 (start.ea 0 0xFFFE) ∧
    start.byteOk 0 (start.ea 0 0xFFFF) := by
  unfold State.fullOk State.halfOk State.byteOk isEven; decide

theorem witness_CompareAlgebraic : isEven (14 : Nibble) ∧ isEven (0 : Nibble) ∧ start.fullOk 0 (start.ea 0 0xFFFE) ∧
    start.byteOk 0 (start.ea 0 0xFFFF) := by
  unfold State.fullOk State.halfOk State.byteOk isEven; decide

theorem witness_ByteHandling : Memory.wf (start.setByte 0 0xFFFF 0xFF).mem = true ∧
    start.byteOk 0 (start.ea 0 0xFFFF) := by
  unfold State.byteOk; decide

theorem witness_ShiftLogical : isEven (14 : Nibble) ∧ isEven (12 : Nibble) ∧ (12 : Nibble).toNat ≤ 12 := by
  unfold isEven; decide

theorem witness_ShiftArithmetic : isEven (14 : Nibble) ∧ isEven (12 : Nibble) ∧ (12 : Nibble).toNat ≤ 12 := by
  unfold isEven; decide

theorem witness_Rotate : isEven (14 : Nibble) := by unfold isEven; decide

/-- The two cases of the mask (45_branch.md R280, the source's example). -/
theorem witness_BranchOnCondition : (start.setStatus 0x000A).psw.cc.bits &&& 8 ≠ 0 ∧
    ¬(start.setStatus 0x000F).psw.cc.bits &&& 0 ≠ 0 := by decide

theorem witness_BranchOnIndex : (13 : Nibble).toNat ≤ 13 := by decide

/-- A state with two floating-point registers. -/
def floats (a b : Full) : State := (start.setFpReg 0 a).setFpReg 2 b

/-- A word to keep, the least normalised one, a zero fraction, and a word that underflows. -/
theorem witness_FloatLoad : Memory.wf (floats 0x41001000 0x00100000).mem = true ∧ isEven (0 : Nibble) ∧
    isEven (2 : Nibble) ∧ ¬ tooSmall (fpScaled ((floats 0x41001000 0x00100000).fpReg 0)) ∧
    ¬ tooSmall (fpScaled ((floats 0x41001000 0x00100000).fpReg 2)) ∧
    ¬ tooSmall (fpScaled ((floats 0 0xC2000000).fpReg 2)) ∧ tooSmall (fpScaled ((floats 0 0x000FFFFF).fpReg 2)) ∧
    start.fullOk 0 (start.ea 0 0xFFFE) := by
  unfold tooSmall State.fullOk State.halfOk State.byteOk isEven; decide

/-- Two normalised operands: registers 0 and 2 of a state in canonical form. -/
def operands (a b : Full) : Prop :=
  Memory.wf (floats a b).mem = true ∧ normalised ((floats a b).fpReg 0) = true ∧
    normalised ((floats a b).fpReg 2) = true

/-- The exponent fields and the fraction of the two registers. -/
def exps (a b : Full) : Nat × Nat := (fpExp ((floats a b).fpReg 0), fpExp ((floats a b).fpReg 2))

/-- Rows FP9, FP12 and FP13: an exact sum, the overflow and the underflow; and a sum that loses a digit. -/
theorem witness_FloatAddSubtract : isEven (0 : Nibble) ∧ isEven (2 : Nibble) ∧ start.fullOk 0 (start.ea 0 0xFFFE) ∧
    (operands 0x41100000 0x41200000 ∧ fpAddLoses 0x41100000 0x41200000 = false ∧
      ¬ tooLarge (fpScaled 0x41100000 + fpScaled 0x41200000) ∧
      ¬ tooSmall (fpScaled 0x41100000 + fpScaled 0x41200000)) ∧
    (operands 0x7FF00000 0x7F100000 ∧ fpAddLoses 0x7FF00000 0x7F100000 = false ∧
      tooLarge (fpScaled 0x7FF00000 + fpScaled 0x7F100000)) ∧
    (operands 0x00100000 0x80110000 ∧ fpAddLoses 0x00100000 0x80110000 = false ∧
      tooSmall (fpScaled 0x00100000 + fpScaled 0x80110000)) ∧
    operands 0x41100000 0x40100001 ∧ fpAddLoses 0x41100000 0x40100001 = true := by
  unfold operands tooLarge tooSmall State.fullOk State.halfOk State.byteOk isEven
  refine ⟨?_, ?_, ?_, ?_, ?_, ?_, ?_⟩ <;> decide

theorem witness_FloatCompare : isEven (0 : Nibble) ∧ isEven (2 : Nibble) ∧ start.fullOk 0 (start.ea 0 0xFFFE) ∧
    operands 0x7FFFFFFF 0 ∧ normalised ((floats 0x41100000 0x40012345).fpReg 2) = false := by
  unfold operands State.fullOk State.halfOk State.byteOk isEven; decide

/-- Exponent fields that add up to 191 and to 192, the least product, one below it, and a zero operand. -/
theorem witness_FloatMultiply : isEven (0 : Nibble) ∧ isEven (2 : Nibble) ∧ start.fullOk 0 (start.ea 0 0xFFFE) ∧
    operands 0x7FFFFFFF 0x40100000 ∧ exps 0x7FFFFFFF 0x40100000 = (127, 64) ∧
    operands 0x7F800000 0x41100000 ∧ exps 0x7F800000 0x41100000 = (127, 65) ∧
    operands 0x01100000 0x40100000 ∧ 2 ^ 20 * 16 ^ 70 ≤ (fpScaled 0x01100000 * fpScaled 0x40100000).natAbs ∧
    operands 0x00FFFFFF 0x40100000 ∧ fpScaled 0x00FFFFFF * fpScaled 0x40100000 ≠ 0 ∧
    (fpScaled 0x00FFFFFF * fpScaled 0x40100000).natAbs < 2 ^ 20 * 16 ^ 70 ∧
    operands 0 0x3F100000 ∧ fpScaled 0 * fpScaled 0x3F100000 = 0 ∧ exps 0 0x3F100000 = (0, 63) := by
  unfold operands State.fullOk State.halfOk State.byteOk isEven
  refine ⟨?_, ?_, ?_, ?_, ?_, ?_, ?_, ?_, ?_, ?_, ?_, ?_, ?_, ?_, ?_⟩ <;> decide

/-- Exponent fields 63 apart with a quotient below one and of one, 64 apart, below by 64 and by 65, and a zero dividend.
-/
theorem witness_FloatDivide : isEven (0 : Nibble) ∧ isEven (2 : Nibble) ∧ start.fullOk 0 (start.ea 0 0xFFFE) ∧
    operands 0x7F100000 0x40200000 ∧ exps 0x7F100000 0x40200000 = (127, 64) ∧ fpFrac 0x7F100000 < fpFrac 0x40200000 ∧
    operands 0x7F100000 0x40100000 ∧ exps 0x7F100000 0x40100000 = (127, 64) ∧
    operands 0x7F100000 0x3F100000 ∧ exps 0x7F100000 0x3F100000 = (127, 63) ∧
    operands 0x00100000 0x40FFFFFF ∧ exps 0x00100000 0x40FFFFFF = (0, 64) ∧
    operands 0x00100000 0x41100000 ∧ exps 0x00100000 0x41100000 = (0, 65) ∧
    operands 0 0x41100000 ∧ (floats 0 0x41100000).fpReg 0 = 0 ∧ (floats 0 0x41100000).fpReg 2 ≠ 0 := by
  unfold operands State.fullOk State.halfOk State.byteOk isEven; decide

theorem witness_FloatCompletes : isEven (14 : Nibble) ∧ start.psw.fpfEn = false ∧ start.fullOk 0 (start.ea 0 0xFFFE) ∧
    operands 0x41100000 0x41200000 ∧ normalised ((floats 0x41100000 0x40012345).fpReg 2) = false := by
  unfold operands State.fullOk State.halfOk State.byteOk isEven; decide

theorem witness_FloatDivideByZero : Memory.wf (start.setFpReg 0 0x41100000).mem = true ∧ isEven (0 : Nibble) ∧
    normalised ((start.setFpReg 0 0x41100000).fpReg 0) = true ∧ (start.setFpReg 0 0x41100000).fpReg 14 = 0 ∧
    (start.setFpReg 0 0x41100000).fullAt 0 0xFFFC = 0 ∧ (start.setStatus 0x0400).psw.fpfEn = true ∧
    start.fullOk 0 (start.ea 0 0xFFFC) := by
  unfold State.fullOk State.halfOk State.byteOk isEven; decide

/-- A queue that is empty, and one that is not. -/
theorem witness_LoadPsw : Memory.wf (start.setFull 0 0x0000 0x02000400).mem = true ∧ start.psw.prot = false ∧
    start.fullOk 0 (start.ea 0 0x0000) ∧ (0x0200 : Word).getMsbD 6 = true ∧ start.queueOk ∧ ¬ start.queueWaits ∧
    (start.setHalf 0 0x0000 0x0001).queueOk ∧ (start.setHalf 0 0x0000 0x0001).queueWaits := by
  unfold State.queueOk State.queueWaits State.fullOk State.halfOk State.byteOk isEven; decide

theorem witness_ExchangePsw : Memory.wf start.mem = true ∧ (14 : Nibble).toNat ≤ 14 ∧ start.psw.prot = false ∧
    start.queueOk := by
  unfold State.queueOk State.halfOk State.byteOk isEven; decide

/-- An even and an odd Service Pointer, for the last device of the table. -/
theorem witness_SimulateInterrupt : Memory.wf start.mem = true ∧ start.psw.prot = false ∧
    start.halvesOk 0 3 ((start.setHalf 0 0x02CE 0xFFFE).halfAt 0 (0x00D0 + 2 * (start.ea 0 0xFFFF &&& 0x00FF))) ∧
    ¬ isEven ((start.setHalf 0 0x02CE 0x0401).halfAt 0 (0x00D0 + 2 * (start.ea 0 0xFFFF &&& 0x00FF))) := by
  unfold State.halvesOk State.halfOk State.byteOk isEven; decide

theorem witness_SupervisorCall : Memory.wf (start.setFull 0 0x009A 0x00000800).mem = true := by decide

theorem witness_AcknowledgeInterrupt : Memory.wf start.mem = true ∧ start.psw.prot = false ∧
    State.requests { start with requests := [⟨0, 0x23, 0x04⟩] } = [⟨0, 0x23, 0x04⟩] ∧ start.requests = [] ∧
    start.byteOk 0 (start.ea 0 0xFFFF) := by
  unfold State.byteOk; decide

/-- A device that answers, and one that times out. -/
theorem witness_SenseStatus : Memory.wf start.mem = true ∧ start.psw.prot = false ∧
    (State.reply { start with replies := [⟨0x23, false, false, 0, 8⟩] } 0x23).timeout = false ∧
    (State.reply { start with replies := [⟨0x23, true, false, 0, 8⟩] } 0x23).timeout = true ∧
    start.byteOk 0 (start.ea 0 0xFFFF) := by
  unfold State.byteOk; decide

theorem witness_SingleTransfers : Memory.wf start.mem = true ∧ start.psw.prot = false ∧
    start.byteOk 0 (start.ea 0 0xFFFF) ∧ start.halfOk 0 (start.ea 0 0xFFFE) ∧
    (State.reply { start with replies := [⟨0, false, false, 0x1234, 0⟩] } 0).timeout = false ∧
    (State.reply { start with replies := [⟨0, true, false, 0, 0⟩] } 0).timeout = true ∧
    start.params.timeoutDraws = false ∧ isEven (start.ea 0 0x0400) ∧ ¬ (lacking 0x0400).byteOk 0 0x0400 := by
  unfold State.halfOk State.byteOk isEven; decide

/-- A good answer, one that times out, and one that shows bit 6. -/
def answered (d : Byte) (status : List (Bool × Word × Byte)) : State :=
  { start.setPair 2 0x04000402 with replies := status.map fun p => ⟨d, p.1, false, p.2.1, p.2.2⟩ }

/-- A block of three bytes with three good answers, and with one and then a bad one; an empty block; an Autoload of
three bytes with a leader, and one whose command times out. -/
theorem witness_BlockTransfers : Memory.wf start.mem = true ∧ start.psw.prot = false ∧ (2 : Nibble).toNat ≤ 14 ∧
    start.bytesOk 0 3 0x0400 ∧ start.fullOk 0 (start.ea 0 0xFFFE) ∧ start.bytesOk 0 3 0x0080 ∧
    ((0x0402 : Word).toNat + 1 - (0x0403 : Word).toNat = 0) ∧
    (answered 0 [(false, 1, 0), (false, 2, 0), (false, 3, 0)]).answers 0 =
      [⟨0, false, false, 1, 0⟩, ⟨0, false, false, 2, 0⟩, ⟨0, false, false, 3, 0⟩] ++ [] ∧
    (∀ r ∈ [(⟨0, false, false, 1, 0⟩ : Reply), ⟨0, false, false, 2, 0⟩, ⟨0, false, false, 3, 0⟩], goodTransfer r) ∧
    (answered 0 [(false, 1, 0), (true, 0, 0)]).answers 0 = [⟨0, false, false, 1, 0⟩] ++ [⟨0, true, false, 0, 0⟩] ∧
    ¬ goodTransfer ⟨0, true, false, 0, 0⟩ ∧ ¬ goodTransfer ⟨0, false, false, 0, 2⟩ ∧
    (answered 0 [(false, 0, 0), (false, 0, 0), (false, 1, 0), (false, 0, 2)]).answers 0 =
      ⟨0, false, false, 0, 0⟩ :: [⟨0, false, false, 0, 0⟩] ++ [⟨0, false, false, 1, 0⟩] ++ [⟨0, false, false, 0, 2⟩] ∧
    (State.reply { start with replies := [⟨0, true, false, 0, 0⟩] } (start.byteAt 0 0x0078)).timeout = true := by
  unfold goodTransfer State.bytesOk State.fullOk State.halfOk State.byteOk isEven; decide

/-- Rows LI3, LI1, LI4 and LI10, and a top beyond the slots. -/
theorem witness_ListAdd : Memory.wf (start.setFull 0 0x0400 0x04040000).mem = true ∧
    start.headerOk 0 (start.ea 0 0x0400) (start.ea 0 0x0400 + 2) ∧
    (lacking 0x0403).headerOk 0 0x0400 0x0402 ∧ (lacking 0x0402).headerOk 0 0x0400 0x0403 ∧
    ¬ isEven (start.ea 0 0x0401) ∧
    (start.setFull 0 0x0400 0x04040000).byteAt 0 0x0401 = (start.setFull 0 0x0400 0x04040000).byteAt 0 0x0400 ∧
    ((start.setFull 0 0x0400 0xFFFEFEFE).byteAt 0 0x0401).toNat <
      ((start.setFull 0 0x0400 0xFFFEFEFE).byteAt 0 0x0400).toNat ∧
    ((start.setFull 0 0x0400 0xFFFEFEFE).byteAt 0 0x0402).toNat <
      ((start.setFull 0 0x0400 0xFFFEFEFE).byteAt 0 0x0400).toNat ∧
    ((start.setFull 0 0x0400 0x04050000).byteAt 0 0x0400).toNat <
      ((start.setFull 0 0x0400 0x04050000).byteAt 0 0x0401).toNat ∧
    ((start.setFull 0 0x0400 0x04000404).byteAt 0 0x0400).toNat ≤
      ((start.setFull 0 0x0400 0x04000404).byteAt 0 0x0403).toNat ∧
    start.halfOk 0 (0x0400 + 4 + 2 * (0xFE : Byte).setWidth 16) := by
  unfold State.headerOk State.halfOk State.byteOk isEven; decide

/-- Rows LI7, LI5, LI6 and LI11. -/
theorem witness_ListRemove : Memory.wf (start.setFull 0 0x0400 0x04020301).mem = true ∧
    start.headerOk 0 (start.ea 0 0x0400) (start.ea 0 0x0400 + 2) ∧
    (lacking 0x0403).headerOk 0 0x0400 0x0402 ∧ (lacking 0x0402).headerOk 0 0x0400 0x0403 ∧
    ¬ isEven (start.ea 0 0x0401) ∧
    (start.setFull 0 0x0400 0x04000001).byteAt 0 0x0401 = 0 ∧
    (start.setFull 0 0x0400 0xFFFFFEFE).byteAt 0 0x0401 ≠ 0 ∧
    ((start.setFull 0 0x0400 0xFFFFFEFE).byteAt 0 0x0401).toNat ≤
      ((start.setFull 0 0x0400 0xFFFFFEFE).byteAt 0 0x0400).toNat ∧
    ((start.setFull 0 0x0400 0xFFFFFEFE).byteAt 0 0x0402).toNat <
      ((start.setFull 0 0x0400 0xFFFFFEFE).byteAt 0 0x0400).toNat ∧
    ((start.setFull 0 0x0400 0x04010900).byteAt 0 0x0400).toNat ≤
      ((start.setFull 0 0x0400 0x04010900).byteAt 0 0x0402).toNat ∧
    start.halfOk 0 (0x0400 + 4 + 2 * (0xFE : Byte).setWidth 16) := by
  unfold State.headerOk State.halfOk State.byteOk isEven; decide

/-- The four quadrant angles. -/
theorem witness_CosineSine : isEven (12 : Nibble) ∧ (12 : Nibble).toNat ≤ 12 ∧ isEven (14 : Nibble) ∧
    start.fullOk 0 (start.ea 0 0xFFFE) ∧ start.pair 2 = 0 ∧ (start.setPair 2 0x40000000).pair 2 = 0x40000000 ∧
    (start.setPair 2 0x80000000).pair 2 = 0x80000000 ∧ (start.setPair 2 0xC0000000).pair 2 = 0xC0000000 := by
  unfold State.fullOk State.halfOk State.byteOk isEven; decide

/-- Each case, with the ends of the arc sine's range, the axes, and the bounds of the hypotenuse at the precision of
reset. -/
theorem witness_ArcFunctions : isEven (12 : Nibble) ∧ (12 : Nibble).toNat ≤ 12 ∧
    start.fullOk 0 (start.ea 0 0xFFFC) ∧ start.fullOk 0 (start.ea 0 0xFFFC + 4) ∧
    (1 : Full).toInt.natAbs < (2 : Full).toInt.natAbs ∧
    (0x80000000 : Full).toInt.natAbs = (0x80000000 : Full).toInt.natAbs ∧ (0x80000000 : Full).toInt < 0 ∧
    (0 : Full).toInt.natAbs ≤ (1 : Full).toInt.natAbs ∧ 0 < (0x7FFFFFFF : Full).toInt ∧
    (2 ^ 31 - 1 + errorHyp start.cpr) ^ 2 <
      (0x7FFFFFFF : Full).toInt.natAbs ^ 2 + (0x7FFFFFFF : Full).toInt.natAbs ^ 2 ∧
    (0x7FFF7FFF : Full).toInt.natAbs ^ 2 + (0 : Full).toInt.natAbs ^ 2 ≤ (2 ^ 31 - 1 - errorHyp start.cpr) ^ 2 := by
  unfold State.fullOk State.halfOk State.byteOk isEven; decide

theorem witness_RootDifference : isEven (14 : Nibble) ∧ isEven (12 : Nibble) ∧ start.fullOk 0 (start.ea 0 0xFFFC) ∧
    start.fullOk 0 (start.ea 0 0xFFFC + 4) ∧
    (3 : Full).toInt.natAbs < (5 : Full).toInt.natAbs ∧ (7 : Full).toInt.natAbs = (0xFFFFFFF9 : Full).toInt.natAbs ∧
    (0 : Full).toInt.natAbs < (0x80000000 : Full).toInt.natAbs := by
  unfold State.fullOk State.halfOk State.byteOk isEven; decide

theorem witness_StatusBits : start.psw.prot = false := by decide

theorem witness_LoadConverted : start.halfOk 0 (start.ea 0 0xFFFE) := by
  unfold State.halfOk State.byteOk isEven; decide

theorem witness_PrivilegedTrap : Memory.wf (start.setStatus 0x0100).mem = true ∧
    (start.setStatus 0x0100).psw.prot = true := by decide

theorem witness_FieldRestrictions : start.psw.prot = false ∧ registersOk (.eppr 15 0) = false ∧
    zerosOk (.lpsw 1 0 0) = false := by decide

/-- An odd address, one with no memory, and the same of the instruction. -/
theorem witness_RefusedAccesses : start.psw.prot = false ∧ ¬ isEven (start.ea 0 0xFFFF) ∧
    wellFormed (.lpsw 0 0 0xFFFF) = true ∧ wellFormed (.mdp 12 0 0xFFFF) = true ∧ isEven (small.ea 0 0x0400) ∧
    ¬ (small.byteOk 0 0x0400 ∧ small.byteOk 0 0x0401) ∧ ¬ small.byteOk 3 0 ∧ small.arrivals.headD [] = [] ∧
    small.power = .running ∧ small.quiet ∧ small.psw.ctEn = false ∧ small.psw.wait = false ∧
    ¬ isEven (start.setLc 0x0101).psw.lc ∧ isEven (small.setLc 0x0400).psw.lc ∧
    ¬ (State.reply { small with replies := [⟨0, false, false, 0, 0⟩] } 0).timeout = true := by
  rw [← State.pending_eq_nil]; unfold State.byteOk isEven; decide

/-- A state whose next step is an instruction. -/
theorem start_ready : start.Ready := ⟨rfl, rfl, rfl, rfl, State.pending_eq_nil.1 (by decide), rfl,
    fun h => absurd h (by decide), by unfold State.halfOk State.byteOk isEven; decide⟩

theorem witness_IllegalInstruction : Memory.wf (start.placeHalves 0xFF00 0).mem = true ∧
    (start.placeHalves 0xFF00 0).Ready ∧
    ((start.placeHalves 0xFF00 0).byteAt (start.placeHalves 0xFF00 0).psw.pbank
      (start.placeHalves 0xFF00 0).psw.lc).toNat = 0xFF ∧ Memory.wf start.mem = true ∧
    (start.byteAt start.psw.pbank start.psw.lc).toNat = 0x00 ∧
    State.params { start with params := { Params.default with hasAugment := false } } =
    ⟨[⟨0, 262144⟩], 0x80, true, false, false⟩ :=
  ⟨by decide, ⟨rfl, rfl, rfl, rfl, State.pending_eq_nil.1 (by decide), rfl, fun h => absurd h (by decide),
    by unfold State.halfOk State.byteOk isEven; decide⟩, by decide, by decide, by decide, rfl⟩

theorem witness_StepRunsDecoded : (start.placeHalves 0x4810 0x0050).Ready ∧
    read ((start.placeHalves 0x4810 0x0050).halfAt 0 0x0100) ((start.placeHalves 0x4810 0x0050).halfAt 0 0x0102) =
      .ok (.lh 1 0 0x0050) ∧ secondFetched 0x4810 = true ∧ (start.placeHalves 0x4810 0x0050).halfOk 0 (0x0100 + 2) :=
  ⟨⟨rfl, rfl, rfl, rfl, State.pending_eq_nil.1 (by decide), rfl, fun h => absurd h (by decide),
    by unfold State.halfOk State.byteOk isEven; decide⟩, by decide, by decide,
    by unfold State.halfOk State.byteOk isEven; decide⟩

/-- One state for each class, one for two of them, and the wait state with none. -/
theorem witness_BoundaryInterrupts : Memory.wf start.mem = true ∧ start.arrivals.headD [] = [] ∧
    start.power = .running ∧
    State.signals { start.setStatus 0x4000 with requests := [⟨0, 0x23, 0⟩] } .external ∧
    State.signals ((start.setStatus 0x0200).setHalf 0 0 0x0001) .channel ∧
    State.signals { start.setStatus 0x2000 with apfPending := true } .powerFailure ∧
    State.signals { start.setStatus 0x2000 with parityInstr := true } .parityInstr ∧
    State.signals { start.setStatus 0x2000 with parityOperand := true } .parityOperand ∧
    State.signals { start.setStatus 0x4800 with requests := [⟨0, 0x23, 0⟩] } .immediate ∧
    State.signals { start.setStatus 0x6000 with requests := [⟨0, 0x23, 0⟩], apfPending := true } .powerFailure ∧
    State.signals { start.setStatus 0x6000 with requests := [⟨0, 0x23, 0⟩], apfPending := true } .external ∧
    (start.setStatus 0x8000).quiet ∧ (start.setStatus 0x8000).psw.wait = true ∧
    ((start.setStatus 0x0200).setHalf 0 0 0x0001).queueOk ∧
    start.halvesOk 0 3 ((start.setHalf 0 0x0116 0xFFFE).halfAt 0 (0x00D0 + 2 * (0x23 : Byte).setWidth 16)) ∧
    ¬ isEven ((start.setHalf 0 0x0116 0x0001).halfAt 0 (0x00D0 + 2 * (0x23 : Byte).setWidth 16)) := by
  simp only [← State.mem_pending, ← State.pending_eq_nil]
  unfold State.queueOk State.halvesOk State.halfOk State.byteOk isEven; decide

/-- The two ends of the range of the Register Save Pointer, and each mode. -/
theorem witness_PowerModes : Memory.wf (start.setHalf 0 0x0022 0x0028).mem = true ∧ start.power = .running ∧
    start.halvesOk 0 16 ((start.setHalf 0 0x0022 0x0028).halfAt 0 0x0022) ∧
    0x0028 ≤ ((start.setHalf 0 0x0022 0x0028).halfAt 0 0x0022).toNat ∧
    start.halvesOk 0 16 ((start.setHalf 0 0x0022 0xFFE0).halfAt 0 0x0022) ∧
    ((start.setHalf 0 0x0022 0xFFE0).halfAt 0 0x0022).toNat ≤ 0xFFE0 ∧
    (start.setStatus 0x2000).psw.mmEn = true ∧ start.psw.mmEn = false ∧
    State.power { start with power := .restart } = .restart ∧ start.power ≠ .powerOff ∧
    start.arrivals.headD [] = [] ∧
    State.power { start with power := .programLoad } = .programLoad ∧
    State.memOperational { start with power := .startUp, memOperational := false } = false ∧
    State.power { start with power := .standBy } = .standBy := by
  unfold State.halvesOk State.halfOk State.byteOk isEven; decide

/-- A full queue, one with room, and a processor that does not run. -/
theorem witness_ChannelTerminate : Memory.wf (start.setFull 0 0 0x04040000).mem = true ∧ start.power = .running ∧
    start.halfOk 0 start.params.qptrLoc ∧ start.bytesOk 0 2 0xFFFF ∧
    start.byteAt 0 (0xFFFF + 1) = start.byteAt 0 0xFFFF ∧
    start.headerOk 0 0 2 ∧ start.headerOk 0 0 3 ∧
    ((start.setFull 0 0 0xFFFEFEFE).byteAt 0 1).toNat < ((start.setFull 0 0 0xFFFEFEFE).byteAt 0 0).toNat ∧
    ((start.setFull 0 0 0xFFFEFEFE).byteAt 0 2).toNat < ((start.setFull 0 0 0xFFFEFEFE).byteAt 0 0).toNat ∧
    start.halfOk 0 (0 + 4 + 2 * (0xFE : Byte).setWidth 16) ∧
    State.power { start with power := .powerDown } ≠ .running := by
  unfold State.bytesOk State.headerOk State.halfOk State.byteOk isEven; decide

/-- A list of events that leaves the mode, one that changes it, one that is refused, memory that is absent, and the
period of the clock. -/
theorem witness_HostEvents : chainFrom 0 [⟨2, 0x23, 0⟩, ⟨5, 0x24, 0⟩] = true ∧
    State.arrivals { start with arrivals := [[.standBy], []] } = [.standBy] :: [[]] ∧
    State.power { start with power := .standBy } ≠ start.power ∧
    start.deliverAll [.advancePowerFailure] = .next { start with apfPending := true } ∧
    small.deliverAll [.dmaWrite 3 0 1] = .refused .absentMemory ∧
    ¬ small.byteOk 3 0 ∧ start.byteOk 3 0 ∧ Memory.wf start.mem = true ∧ start.rtc < 17280000000 :=
  have h : ¬ small.byteOk 3 0 := by unfold State.byteOk; decide
  ⟨by decide, rfl, by decide, rfl,
    by rw [State.deliverAll, State.deliver, State.writeByte, State.guardByte_absent h]; rfl, h,
    by unfold State.byteOk; decide, by decide, by show 0 < 17280000000; omega⟩

/-- A Supervisor Call leaves Protect Mode. -/
theorem witness_GuardedState : (∃ t, exec (.svc 0 0 0) (start.setStatus 0x0100) = .next t ∧ t.psw.prot = false) ∧
    (start.setStatus 0x0100).psw.prot = true ∧ (start.setStatus 0x1000).psw.fdfEn = true ∧
    (start.setStatus 0x0400).psw.fpfEn = true := ⟨⟨_, rfl, by decide⟩, by decide, by decide, by decide⟩

theorem next_of {o : Host.Outcome State Fault Refusal}
    (h : (match o with | .next _ => true | _ => false) = true) : ∃ t, o = .next t := by
  cases o <;> simp_all

theorem witness_StepKeepsInvariant : (start.placeHalves 0x2437 0).Inv ∧
    ∃ t, step (start.placeHalves 0x2437 0) = .next t :=
  ⟨by unfold State.Inv; decide, next_of (by decide)⟩

theorem witness_MemoryReadWrite : Memory.wf (start.setFull 3 0xFFFE 0x00FF00FF).mem = true ∧
    ¬ span 3 0xFFFE 4 3 0x0002 ∧ ¬ span 3 0xFFFE 4 2 0xFFFE := by unfold span; decide

theorem witness_DecodeEncode : encode Params.default (.lh 1 0 0x0050) = some ⟨0x4810, some 0x0050⟩ ∧
    encode Params.default (.lis 3 7) = some ⟨0x2437, none⟩ := by decide

theorem witness_EncodeDecode : read 0x4810 0x0050 = .ok (.lh 1 0 0x0050) ∧ read 0x2437 0xFFFF = .ok (.lis 3 7) := by
  decide


end Sys2Proof.Tests
end

section
/-! What memory holds is read back, in whole or in parts, and a store changes no other byte (20_memory.md R62, R68). -/

namespace Sys2Proof.Machine

/-- Appending bytes to a halfword one by one or two at once is the same. -/
theorem append_bytes (h : Word) (p q : Byte) : (h ++ (p ++ q) : Full) = h ++ p ++ q :=
  BitVec.append_assoc'.trans (BitVec.cast_eq ..)

/-- A fullword is its four bytes, the first the most significant (20_memory.md R62, R68). -/
theorem State.fullAt_eq_bytes (s : State) (b : Bank) (a : Word) :
    s.fullAt b a = s.byteAt b a ++ s.byteAt b (a + 1) ++ s.byteAt b (a + 2) ++ s.byteAt b (a + 3) := by
  have e : a + 2 + 1 = a + 3 := by bv_omega
  rw [State.fullAt, State.halfAt, State.halfAt, e]
  exact append_bytes ..

/-- The bytes of a fullword that a span of four leaves out are not among its four addresses. -/
theorem not_mem_of_not_span {b b' : Bank} {a a' : Word} (h : ¬ span b a 4 b' a') :
    ¬(b' = b ∧ (a' = a ∨ a' = a + 1 ∨ a' = a + 2 ∨ a' = a + 3)) := by
  rintro ⟨hb, ha⟩
  refine h ⟨hb, ?_⟩
  bv_omega

/-- Settles O57: the laws of memory, a store read back and every other byte kept. -/
theorem memoryReadWrite : Obligations.MemoryReadWrite := by
  intro s b a hm
  refine ⟨rfl, s.fullAt_eq_bytes b a, State.byteAt_setByte_self hm b a, fun v => ?_, fun v => ?_, fun v b' a' h => ?_⟩
  · have hv := State.halfAt_setHalf_self hm b a v
    exact ⟨hv, hv⟩
  · have hv := State.fullAt_setFull_self hm b a v
    exact ⟨hv, hv⟩
  · exact State.byteAt_setFull_of_ne v (not_mem_of_not_span h)

end Sys2Proof.Machine
end

section
/-! The invariant of the machine: every operation keeps it, then every instruction, every host event and every
interrupt, so every step. -/

namespace Sys2Proof.Machine

/-! ### What an outcome answers -/

/-- A next state that an outcome answers has a property; a fault or a refusal answers none. -/
def onNext (P : State → Prop) (o : Out) : Prop := ∀ t, o = .next t → P t

section Answers

variable {P Q : State → Prop} {s t : State} {o : Out} {b : Bank} {a : Word}

theorem onNext_next (h : P t) : onNext P (.next t) := fun _ e => Host.Outcome.next.inj e ▸ h

theorem onNext_require {ok : Bool} {r : Refusal} (h : onNext P o) : onNext P (require ok r o) :=
  fun t e => h t (require_next.1 e).2

theorem onNext_ite {c : Prop} [Decidable c] {o' : Out} (h : onNext P o) (h' : onNext P o') :
    onNext P (if c then o else o') := by
  split
  · exact h
  · exact h'

theorem onNext_andThen {k : State → Out} (h : onNext Q o) (hk : ∀ u, Q u → onNext P (k u)) :
    onNext P (andThen o k) := fun t e =>
  have ⟨u, hu, ht⟩ := andThen_next.1 e
  hk u (h u hu) t ht

theorem onNext_guardByte (h : onNext P o) : onNext P (s.guardByte b a o) := onNext_require h

theorem onNext_guardHalf (h : onNext P o) : onNext P (s.guardHalf b a o) := onNext_require (onNext_require h)

theorem onNext_guardHalves {n : Nat} (h : onNext P o) : onNext P (s.guardHalves b n a o) :=
  fun t e => h t (State.guardHalves_next.1 e).2

theorem onNext_guardFull (h : onNext P o) : onNext P (s.guardFull b a o) := onNext_guardHalves h

theorem onNext_guardHeader {p : Word} (h : onNext P o) : onNext P (s.guardHeader b a p o) :=
  fun t e => h t (State.guardHeader_next.1 e).2

theorem onNext_guardQueue (h : onNext P o) : onNext P (s.guardQueue o) :=
  fun t e => h t (State.guardQueue_next.1 e).2

end Answers

/-! ### The acknowledge chain -/

theorem chainFrom_cons {lo : Nat} {r : Request} {l : List Request} :
    chainFrom lo (r :: l) = true ↔ lo ≤ r.chain ∧ chainFrom (r.chain + 1) l = true := by
  simp [chainFrom]

theorem chainFrom_mono {lo lo' : Nat} (h : lo' ≤ lo) {l : List Request} (hl : chainFrom lo l = true) :
    chainFrom lo' l = true := by
  cases l with
  | nil => rfl
  | cons r rest =>
    obtain ⟨hr, hrest⟩ := chainFrom_cons.1 hl
    exact chainFrom_cons.2 ⟨h.trans hr, hrest⟩

/-- The chain stays in order when its first request is acknowledged (60_exceptions.md R474). -/
theorem chainFrom_tail {lo : Nat} {l : List Request} (hl : chainFrom lo l = true) : chainFrom lo l.tail = true := by
  cases l with
  | nil => rfl
  | cons r rest =>
    obtain ⟨hr, hrest⟩ := chainFrom_cons.1 hl
    exact chainFrom_mono (by omega) hrest

theorem chainFrom_insertRequest {lo : Nat} {r : Request} {l : List Request} (hr : lo ≤ r.chain)
    (hl : chainFrom lo l = true) : chainFrom lo (insertRequest r l) = true := by
  induction l generalizing lo with
  | nil => exact chainFrom_cons.2 ⟨hr, rfl⟩
  | cons q rest ih =>
    obtain ⟨hq, hrest⟩ := chainFrom_cons.1 hl
    rw [insertRequest]
    split
    · exact chainFrom_cons.2 ⟨hr, chainFrom_cons.2 ⟨by omega, hrest⟩⟩
    · split
      · next heq => exact chainFrom_cons.2 ⟨hr, heq ▸ hrest⟩
      · exact chainFrom_cons.2 ⟨hq, ih (by omega) hrest⟩

theorem chainFrom_withdrawRequest {lo c : Nat} {l : List Request} (hl : chainFrom lo l = true) :
    chainFrom lo (withdrawRequest c l) = true := by
  induction l generalizing lo with
  | nil => rfl
  | cons q rest ih =>
    obtain ⟨hq, hrest⟩ := chainFrom_cons.1 hl
    rw [withdrawRequest]
    split
    · exact ih (chainFrom_mono (by omega) hrest)
    · exact chainFrom_cons.2 ⟨hq, ih hrest⟩

/-! ### The state's operations keep the invariant -/

namespace State.Inv

variable {s t : State}

theorem wf_mem (h : s.Inv) : Memory.wf s.mem = true := by
  obtain ⟨hm, -, -, -⟩ := h
  exact hm

theorem legal_cpr (h : s.Inv) : legalCpr s.cpr = true := by
  obtain ⟨-, hcpr, -, -⟩ := h
  exact hcpr

theorem requests_inOrder (h : s.Inv) : chainFrom 0 s.requests = true := by
  obtain ⟨-, -, hreq, -⟩ := h
  exact hreq

/-- A change that leaves requests and the Real-Time clock alone keeps the invariant where it leaves memory canonical
and the CPR legal. -/
theorem of_legal (h : s.Inv) (hm : Memory.wf t.mem = true) (hc : legalCpr t.cpr = true) (hq : t.requests = s.requests)
    (hr : t.rtc = s.rtc) : t.Inv := by
  obtain ⟨-, -, hreq, hrtc⟩ := h
  exact ⟨hm, hc, hq ▸ hreq, hr ▸ hrtc⟩

/-- The same of a change that leaves the CPR alone. -/
theorem of_wf (h : s.Inv) (hm : Memory.wf t.mem = true) (hc : t.cpr = s.cpr) (hq : t.requests = s.requests)
    (hr : t.rtc = s.rtc) : t.Inv := h.of_legal hm (hc ▸ h.legal_cpr) hq hr

theorem setCpr (h : s.Inv) (w : Word) : State.Inv { s with cpr := cprValue w } :=
  h.of_legal h.wf_mem (legalCpr_cprValue w) rfl rfl

theorem setRequests (h : s.Inv) {l : List Request} (hl : chainFrom 0 l = true) :
    State.Inv { s with requests := l } := by
  obtain ⟨hm, hcpr, -, hrtc⟩ := h
  exact ⟨hm, hcpr, hl, hrtc⟩

theorem acknowledged (h : s.Inv) : s.acknowledged.Inv := h.setRequests (chainFrom_tail h.requests_inOrder)

theorem tick (h : s.Inv) : s.tick.Inv := by
  obtain ⟨hm, hcpr, hreq, -⟩ := h
  exact ⟨hm, hcpr, hreq, Nat.mod_lt _ (by decide)⟩

theorem loseMemory (h : s.Inv) : s.loseMemory.Inv := h.of_wf s.wf_freeMemory rfl rfl rfl

/-! Of the state the invariant speaks of four fields: an update of another one leaves it as it is. -/

theorem setReg (h : s.Inv) (r : Nibble) (v : Word) : (s.setReg r v).Inv := h

theorem setCc (h : s.Inv) (cc : Cc) : (s.setCc cc).Inv := h

theorem operate (h : s.Inv) (d : Byte) (op : BusOp) : (s.operate d op).Inv := h

theorem setPower (h : s.Inv) (p : PowerMode) : State.Inv { s with power := p } := h

theorem setByte (h : s.Inv) (b : Bank) (a : Word) (v : Byte) : (s.setByte b a v).Inv :=
  h.of_wf (State.wf_setByte h.wf_mem b a v) rfl rfl rfl

theorem setHalf (h : s.Inv) (b : Bank) (a v : Word) : (s.setHalf b a v).Inv := (h.setByte ..).setByte ..

theorem setFull (h : s.Inv) (b : Bank) (a : Word) (v : Full) : (s.setFull b a v).Inv := (h.setHalf ..).setHalf ..

theorem exchange (h : s.Inv) (old new lc : Word) : (s.exchange old new lc).Inv :=
  h.of_wf (State.wf_exchange h.wf_mem old new lc)
    (s.exchange_cpr ..) (s.exchange_requests ..) (s.exchange_rtc ..)

theorem immediateEntry (h : s.Inv) (sp lc : Word) : (s.immediateEntry sp lc).Inv :=
  h.of_wf (State.wf_immediateEntry h.wf_mem sp lc)
    (s.immediateEntry_cpr ..) (s.immediateEntry_requests ..) (s.immediateEntry_rtc ..)

theorem supervisorCall (h : s.Inv) (k : Nibble) (p n : Word) : (s.supervisorCall k p n).Inv :=
  h.of_wf (State.wf_supervisorCall h.wf_mem k p n)
    (s.supervisorCall_cpr ..) (s.supervisorCall_requests ..) (s.supervisorCall_rtc ..)

theorem loadMany (h : s.Inv) (b : Bank) (n : Nat) (r : Nibble) (a : Word) : (loadMany b n r a s).Inv := by
  rw [loadMany_same]; exact h

theorem storeMany (h : s.Inv) (b : Bank) (n : Nat) (r : Nibble) (a : Word) : (storeMany b n r a s).Inv := by
  have hm := wf_storeMany b n r a s h.wf_mem
  rw [storeMany_same] at hm ⊢
  exact h.of_wf hm rfl rfl rfl

theorem afterLeader (h : s.Inv) (d : Byte) : (s.afterLeader d).Inv := by
  rw [State.afterLeader_eq]; exact h

/-! ### The shared endings of the instructions -/

theorem putCc (h : s.Inv) (len : Word) (cc : Cc) : (putCc len cc s).Inv := h

theorem outputCommand (h : s.Inv) (len : Word) (d v : Byte) : (outputCommand len d v s).Inv := h

theorem outputData (h : s.Inv) (len : Word) (d : Byte) (op : BusOp) : (outputData len d op s).Inv := h

theorem branchIf (h : s.Inv) (taken : Bool) (target len : Word) : (branchIf taken target len s).Inv := by
  unfold Machine.branchIf; split <;> exact h

theorem divideFault (h : s.Inv) (len : Word) : (divideFault len s).Inv := by
  unfold Machine.divideFault
  split
  · exact h.exchange ..
  · exact h

theorem divideHalf (h : s.Inv) (len : Word) (r1 : Nibble) (d : Word) : (divideHalf len r1 d s).Inv := by
  unfold Machine.divideHalf
  split
  · exact divideFault (s := s.drawn) h len
  · exact h

theorem divideFull (h : s.Inv) (len : Word) (r1 : Nibble) (d : Full) : (divideFull len r1 d s).Inv := by
  unfold Machine.divideFull
  split
  · exact divideFault (s := s.drawn) h len
  · exact h

theorem raiseFloatIf (h : s.Inv) (raised : Bool) (next len : Word) :
    (if raised then s.raiseFloat next else s.advance len).Inv := by
  split
  · exact h.exchange ..
  · exact h

theorem finishFloat (h : s.Inv) (len : Word) (r1 : Nibble) (o : FpOutcome) : (finishFloat len r1 o s).Inv := by
  unfold Machine.finishFloat
  cases o.store with
  | none => exact raiseFloatIf (s := (s.setCc o.cc).drawn) h ..
  | some w => exact raiseFloatIf (s := ((s.setFpReg r1 w).setCc o.cc).drawn) (h.setFull ..) ..

theorem arcSineInto (h : s.Inv) (len : Word) (r1 : Nibble) (z y : Full) : (arcSineInto len r1 z y s).Inv := by
  unfold Machine.arcSineInto; split <;> exact h

theorem arcTangentInto (h : s.Inv) (len : Word) (r1 : Nibble) (x y : Full) : (arcTangentInto len r1 x y s).Inv := by
  unfold Machine.arcTangentInto; split
  · exact h
  · split <;> exact h

theorem rootDifferenceInto (h : s.Inv) (len : Word) (r1 : Nibble) (x y : Full) :
    (rootDifferenceInto len r1 x y s).Inv := by
  unfold Machine.rootDifferenceInto; dsimp only; split
  · exact h
  · split <;> exact h

/-! ### The outcomes of shared operations -/

theorem privileged (h : s.Inv) {o : Out} (ho : onNext State.Inv o) : onNext State.Inv (s.privileged o) := by
  intro t e
  obtain ⟨-, rfl⟩ | ⟨-, e⟩ := privileged_next.1 e
  · exact h.exchange ..
  · exact ho t e

theorem examineQueue (h : s.Inv) : onNext State.Inv s.examineQueue := by
  intro t e
  obtain rfl | rfl := State.examineQueue_next e
  · exact h
  · exact h.exchange ..

theorem serviceAction (h : s.Inv) (d : Byte) (lc : Word) : onNext State.Inv (s.serviceAction d lc) := by
  intro t e
  obtain ⟨-, rfl⟩ := State.serviceAction_next e
  exact h.immediateEntry ..

theorem addTop (h : s.Inv) (b : Bank) (a v : Word) : onNext State.Inv (s.addTop b a v) :=
  onNext_require (onNext_guardHalf (onNext_next (((h.setByte ..).setByte ..).setHalf ..)))

theorem addBottom (h : s.Inv) (b : Bank) (a v : Word) : onNext State.Inv (s.addBottom b a v) :=
  onNext_require (onNext_guardHalf (onNext_next (((h.setHalf ..).setByte ..).setByte ..)))

theorem inputData (h : s.Inv) {len : Word} {d : Byte} {op : BusOp} {data : Word} {put : Word → State → Out}
    (hput : ∀ v, onNext State.Inv (put v (s.operate d op))) : onNext State.Inv (inputData len d op data put s) := by
  refine onNext_andThen (Q := State.Inv) ?_ fun u hu => onNext_next hu
  split
  · split
    · exact hput _
    · exact onNext_next h
  · exact hput _

theorem readBlock (h : s.Inv) (d : Byte) (k : Nat) (n : Word) : onNext State.Inv (readBlock d k n s) := by
  intro t e
  obtain ⟨hm, ht⟩ := readBlock_next d k n s t e
  rw [ht]
  exact h.of_wf (hm h.wf_mem) rfl rfl rfl

theorem writeBlock (h : s.Inv) (d : Byte) (k : Nat) (n : Word) : onNext State.Inv (writeBlock d k n s) := by
  intro t e
  rw [writeBlock_next d k n s t e]
  exact h

theorem autoload (h : s.Inv) (d : Byte) (k : Nat) (n : Word) : onNext State.Inv (autoload d k n s) := by
  intro t e
  obtain ⟨hm, ht⟩ := autoload_next d k n s t e
  rw [ht]
  exact h.of_wf (hm h.wf_mem) rfl rfl rfl

end State.Inv

/-! ### The instructions -/

/-- Every instruction keeps the invariant, by the shape of its meaning: what it checks, then what it changes. -/
theorem exec_keeps_inv {s : State} (h : s.Inv) : ∀ i, onNext State.Inv (exec i s)
  -- registers, the PSW, the CPR and the draws alone
  | .lis .. | .lcs .. | .lhr .. | .lhi .. | .ais .. | .ahr .. | .ahi .. | .achr .. | .sis .. | .shr .. | .shi ..
  | .schr .. | .nhr .. | .nhi .. | .ohr .. | .ohi .. | .xhr .. | .xhi .. | .lbr .. | .stbr .. | .exbr .. | .slls ..
  | .slhl .. | .srls .. | .srhl .. | .slha .. | .srha .. | .balr .. | .bal .. | .epor .. | .lchr .. | .lcnhr ..
  | .lavr .. | .lfr .. | .lf .. | .stf .. | .afr .. | .af .. | .sfr .. | .sf .. | .cfr .. | .cf .. | .mfr .. | .mf ..
  | .dfr .. | .df .. => onNext_next h
  | .ldpr .. | .adpr .. | .sdpr .. | .mhr .. | .mhur .. | .mdpr .. | .sll .. | .slql .. | .srl .. | .srql .. | .rll ..
  | .rrl .. | .sla .. | .slqa .. | .sra .. | .srqa .. | .eppr .. | .cosr .. => onNext_require (onNext_next h)
  | .thi .. | .clhr .. | .clhi .. | .chr .. | .chi .. => onNext_next (h.putCc ..)
  | .cldpr .. | .cdpr .. => onNext_require (onNext_next (h.putCc ..))
  | .ecpr .. => onNext_next (h.setCpr _)
  | .btbs .. | .btfs .. | .btcr .. | .btc .. | .bfbs .. | .bffs .. | .bfcr .. | .bfc .. =>
    onNext_next (h.branchIf ..)
  | .bxh .. | .bxle .. => onNext_require (onNext_next ((h.setReg ..).branchIf ..))
  -- the same, with an operand in memory
  | .lh .. | .lh0 .. | .lh1 .. | .lh2 .. | .lh3 .. | .ah .. | .ach .. | .sh .. | .sch .. | .nh .. | .oh .. | .xh ..
  | .lch .. | .lcnh .. | .lav .. => onNext_guardHalf (onNext_next h)
  | .mh .. | .mhu .. => onNext_require (onNext_guardHalf (onNext_next h))
  | .ldp .. | .adp .. | .sdp .. | .mdp .. | .cos .. => onNext_require (onNext_guardFull (onNext_next h))
  | .lb .. => onNext_guardByte (onNext_next h)
  | .clb .. => onNext_guardByte (onNext_next (h.putCc ..))
  | .clh .. | .ch .. => onNext_guardHalf (onNext_next (h.putCc ..))
  | .cldp .. | .cdp .. => onNext_require (onNext_guardFull (onNext_next (h.putCc ..)))
  | .lm .. => onNext_guardHalves (onNext_next (h.loadMany ..))
  -- stores
  | .sth .. | .sth0 .. | .sth1 .. | .sth2 .. | .sth3 .. =>
    onNext_andThen (onNext_guardHalf (onNext_next (h.setHalf ..))) fun _ hu => onNext_next hu
  | .stdp .. | .ste .. => onNext_require
    (onNext_andThen (onNext_guardFull (onNext_next (h.setFull ..))) fun _ hu => onNext_next hu)
  | .stb .. => onNext_andThen (onNext_guardByte (onNext_next (h.setByte ..))) fun _ hu => onNext_next hu
  | .stm .. => onNext_guardHalves (onNext_next (h.storeMany ..))
  | .ahm .. => onNext_guardHalf (onNext_next (h.setHalf ..))
  -- divides and floating point, which may raise an interrupt
  | .dhr .. => onNext_require (onNext_next (h.divideHalf ..))
  | .ddpr .. => onNext_require (onNext_next (h.divideFull ..))
  | .dh .. => onNext_require (onNext_guardHalf (onNext_next (h.divideHalf ..)))
  | .ddp .. => onNext_require (onNext_guardFull (onNext_next (h.divideFull ..)))
  | .ler .. => onNext_require (onNext_next (h.finishFloat ..))
  | .le .. => onNext_require (onNext_guardFull (onNext_next (h.finishFloat ..)))
  | .aer .. | .ser .. | .mer .. | .der .. => onNext_require (onNext_require (onNext_next (h.finishFloat ..)))
  | .ae .. | .se .. | .me .. | .de .. =>
    onNext_require (onNext_guardFull (onNext_require (onNext_next (h.finishFloat ..))))
  | .cer .. => onNext_require (onNext_require (onNext_next (h.putCc ..)))
  | .ce .. => onNext_require (onNext_guardFull (onNext_require (onNext_next (h.putCc ..))))
  -- the trigonometric option
  | .asnr .. => onNext_require (onNext_next (h.arcSineInto ..))
  | .atnr .. => onNext_require (onNext_next (h.arcTangentInto ..))
  | .sqdr .. => onNext_require (onNext_next (h.rootDifferenceInto ..))
  | .asn .. => onNext_require (onNext_guardFull (onNext_guardFull (onNext_next (h.arcSineInto ..))))
  | .atn .. => onNext_require (onNext_guardFull (onNext_guardFull (onNext_next (h.arcTangentInto ..))))
  | .sqd .. => onNext_require (onNext_guardFull (onNext_guardFull (onNext_next (h.rootDifferenceInto ..))))
  -- system control
  | .lpsw .. => h.privileged (onNext_require (onNext_guardFull (State.Inv.examineQueue h)))
  | .epsr .. => h.privileged (State.Inv.examineQueue h)
  | .sint .. => h.privileged (onNext_require (h.serviceAction _ _))
  | .svc .. => onNext_next (h.supervisorCall ..)
  | .sesb .. | .resb .. => h.privileged (onNext_require (onNext_next h))
  -- input and output
  | .air .. => h.privileged (onNext_next h.acknowledged)
  | .ai .. => h.privileged (onNext_guardByte (onNext_next (h.acknowledged.setByte ..)))
  | .ssr .. => h.privileged (onNext_next h)
  | .ss .. => h.privileged (onNext_guardByte (onNext_next ((h.operate ..).setByte ..)))
  | .ocr .. => h.privileged (onNext_next (h.outputCommand ..))
  | .oc .. => h.privileged (onNext_guardByte (onNext_next (h.outputCommand ..)))
  | .wdr .. | .whr .. => h.privileged (onNext_next (h.outputData ..))
  | .wd .. => h.privileged (onNext_guardByte (onNext_next (h.outputData ..)))
  | .wh .. => h.privileged (onNext_guardHalf (onNext_next (h.outputData ..)))
  | .rdr .. | .rhr .. => h.privileged (h.inputData fun _ => onNext_next h)
  | .rd .. => h.privileged (h.inputData fun _ => onNext_guardByte (onNext_next ((h.operate ..).setByte ..)))
  | .rh .. => h.privileged (onNext_require
    (h.inputData fun _ => onNext_guardHalf (onNext_next ((h.operate ..).setHalf ..))))
  | .rbr .. => h.privileged (onNext_require (onNext_andThen (h.readBlock _ _ _) fun _ hu => onNext_next hu))
  | .rb .. => h.privileged (onNext_guardFull (onNext_andThen (h.readBlock _ _ _) fun _ hu => onNext_next hu))
  | .wbr .. => h.privileged (onNext_require (onNext_andThen (h.writeBlock _ _ _) fun _ hu => onNext_next hu))
  | .wb .. => h.privileged (onNext_guardFull (onNext_andThen (h.writeBlock _ _ _) fun _ hu => onNext_next hu))
  | .al .. => h.privileged (onNext_require (onNext_ite (onNext_next h)
    (onNext_andThen (((h.operate ..).afterLeader _).autoload _ _ _) fun _ hu => onNext_next hu)))
  -- lists
  | .atl .. => onNext_guardHeader (onNext_ite (onNext_next h)
    (onNext_andThen (h.addTop _ _ _) fun _ hu => onNext_next hu))
  | .abl .. => onNext_guardHeader (onNext_ite (onNext_next h)
    (onNext_andThen (h.addBottom _ _ _) fun _ hu => onNext_next hu))
  | .rtl .. | .rbl .. => onNext_guardHeader (onNext_ite (onNext_next h)
    (onNext_require (onNext_guardHalf (onNext_next (((h.setReg ..).setByte ..).setByte ..)))))

/-! ### Host events, interrupts and the step -/

theorem saveForPowerDown_keeps_inv {s : State} (h : s.Inv) : onNext State.Inv s.saveForPowerDown :=
  onNext_ite (onNext_guardHalves (onNext_next ((((h.storeMany 0 16 0 s.savePointer).setHalf 0 0x0024
    s.psw.status).setHalf 0 0x0026 s.psw.lc).setPower .powerDown))) (onNext_next h)

theorem startLoading_keeps_inv {s : State} (h : s.Inv) : s.startLoading.Inv := by
  unfold State.startLoading; split <;> exact h

theorem terminateChannel_keeps_inv {s : State} (h : s.Inv) (p : Word) :
    ∀ e, onNext State.Inv (s.terminateChannel p e)
  | .top => onNext_ite (onNext_guardHalf (onNext_guardByte (onNext_guardByte (onNext_ite
      (onNext_next ((h.setHalf ..).exchange ..)) (onNext_guardHeader (h.addTop _ _ _)))))) (onNext_next h)
  | .bottom => onNext_ite (onNext_guardHalf (onNext_guardByte (onNext_guardByte (onNext_ite
      (onNext_next ((h.setHalf ..).exchange ..)) (onNext_guardHeader (h.addBottom _ _ _)))))) (onNext_next h)

theorem deliver_keeps_inv {s : State} (h : s.Inv) : ∀ e, onNext State.Inv (s.deliver e)
  | .request _ => onNext_next (h.setRequests (chainFrom_insertRequest (Nat.zero_le _) h.requests_inOrder))
  | .dropRequest _ => onNext_next (h.setRequests (chainFrom_withdrawRequest h.requests_inOrder))
  | .reply _ | .parityInstr | .parityOperand | .advancePowerFailure | .standBy | .powerRestore _ => onNext_next h
  | .powerDown => saveForPowerDown_keeps_inv h
  | .powerOff => onNext_next h.loseMemory
  | .programLoad => onNext_next (startLoading_keeps_inv h)
  | .channelTerminate p e => terminateChannel_keeps_inv h p e
  | .dmaWrite .. => onNext_guardByte (onNext_next (h.setByte ..))
  | .tick => onNext_next h.tick

theorem deliverAll_keeps_inv : ∀ (es : List HostEvent) {s : State}, s.Inv → onNext State.Inv (s.deliverAll es)
  | [], _, h => onNext_next h
  | e :: es, _, h => onNext_andThen (deliver_keeps_inv h e) fun _ hu => deliverAll_keeps_inv es hu

theorem takeImmediate_keeps_inv {s : State} (h : s.Inv) : onNext State.Inv s.takeImmediate := by
  unfold State.takeImmediate
  split
  · exact onNext_next h
  · exact h.acknowledged.serviceAction _ _

theorem takeInterrupt_keeps_inv {s : State} (h : s.Inv) : ∀ c, onNext State.Inv (s.takeInterrupt c)
  | .parityInstr => onNext_next ((State.Inv.exchange (s := { s with parityInstr := false }) h ..).setCc _)
  | .parityOperand => onNext_next ((State.Inv.exchange (s := { s with parityOperand := false }) h ..).setCc _)
  | .powerFailure => onNext_next ((State.Inv.exchange (s := { s with apfPending := false }) h ..).setCc _)
  | .external | .channel => onNext_next (h.exchange ..)
  | .immediate => takeImmediate_keeps_inv h

theorem fetch_keeps_inv {s : State} (h : s.Inv) : onNext State.Inv (s.fetch exec) := by
  refine onNext_require (onNext_require ?_)
  split
  · exact onNext_next (h.exchange ..)
  · exact fun _ e => nomatch e
  · exact onNext_require (exec_keeps_inv h _)

theorem boundary_keeps_inv {s : State} (h : s.Inv) : onNext State.Inv (s.boundary exec) := by
  refine onNext_guardQueue ?_
  split
  · exact onNext_ite (onNext_next h) (fetch_keeps_inv h)
  · exact takeInterrupt_keeps_inv h _
  · exact takeInterrupt_keeps_inv (s := s.drawn) h _

theorem dropMasked_keeps_inv {s : State} (h : s.Inv) : s.dropMasked.Inv := by
  unfold State.dropMasked; split <;> exact h

theorem initialised_keeps_inv {s : State} (h : s.Inv) : s.initialised.Inv :=
  have ⟨hm, hcpr⟩ := s.initialised_legal
  h.of_legal hm hcpr s.initialised_requests s.initialised_rtc

theorem restored_keeps_inv {s : State} (h : s.Inv) : s.restored.Inv := by
  have hload := h.loadMany 0 16 0 s.savePointer
  unfold State.restored
  generalize loadMany 0 16 0 s.savePointer s = u at hload ⊢
  exact hload.of_legal hload.wf_mem (legalCpr_cprValue _) rfl rfl

theorem performRestart_keeps_inv {s : State} (h : s.Inv) : onNext State.Inv s.performRestart := by
  intro t e
  rw [State.performRestart_next e]
  split
  · exact (restored_keeps_inv h).exchange ..
  · exact restored_keeps_inv h

theorem act_keeps_inv {s : State} (h : s.Inv) : onNext State.Inv (s.act exec) := by
  unfold State.act
  cases s.power with
  | running => exact boundary_keeps_inv (dropMasked_keeps_inv h)
  | startUp =>
    refine onNext_next ?_
    split
    · exact h
    · exact initialised_keeps_inv h
  | programLoad => exact onNext_next (initialised_keeps_inv h)
  | restart => exact performRestart_keeps_inv h
  | powerDown | standBy | powerOff => exact onNext_next h

/-- The events of the boundary keep the invariant, then what the processor does in its mode keeps it. -/
theorem step_keeps_inv {s : State} (h : s.Inv) : onNext State.Inv (step s) :=
  onNext_andThen (deliverAll_keeps_inv _ h) fun _ hu => onNext_ite (act_keeps_inv hu) (onNext_next hu)

/-- Settles O56: the invariant is kept event by event, interrupt by interrupt and instruction by instruction. -/
theorem stepKeepsInvariant : Obligations.StepKeepsInvariant := fun _ t h e => step_keeps_inv h t e

end Sys2Proof.Machine
end

section
/-! Accesses that the machine refuses by name: at an odd address, or where no memory is fitted (20_memory.md R61,
R67). -/

namespace Sys2Proof.Machine

/-! ### The refusals of a guarded outcome -/

/-- An outcome that begins with the access to the halfword at an address: refused where the address is odd (log 5), and
where it is even and a byte of the halfword is not memory (log 4), unless the access is excused. -/
def State.refusesHalf (s : State) (b : Bank) (a : Word) (excused : Prop) (o : Out) : Prop :=
  (¬ isEven a → o = .refused .oddAddress) ∧
    (isEven a → ¬ (s.byteOk b a ∧ s.byteOk b (a + 1)) → ¬ excused → o = .refused .absentMemory)

theorem evenAddr_eq_false {a : Word} (h : ¬ isEven a) : evenAddr a = false :=
  Bool.eq_false_iff.2 fun k => h ((evenAddr_iff a).1 k)

theorem State.halfPresent_eq_false {s : State} {b : Bank} {a : Word} (h : ¬ (s.byteOk b a ∧ s.byteOk b (a + 1))) :
    s.halfPresent b a = false := Bool.eq_false_iff.2 fun k => h (State.halfPresent_iff.1 k)

section Refusals

variable {s : State} {b : Bank} {a : Word} {u : Prop} {o : Out}

theorem refusesHalf_guardHalf : s.refusesHalf b a u (s.guardHalf b a o) :=
  ⟨State.guardHalf_odd, fun h h' _ => State.guardHalf_absent h h'⟩

theorem refusesHalf_guardFull : s.refusesHalf b a u (s.guardFull b a o) := refusesHalf_guardHalf

theorem refusesHalf_guardHalves {n : Nat} (hn : 0 < n) : s.refusesHalf b a u (s.guardHalves b n a o) := by
  cases n with
  | zero => omega
  | succ n => exact refusesHalf_guardHalf

/-- LM and STM transfer at least one halfword. -/
theorem manyCount_pos (r : Nibble) : 0 < manyCount r := by
  have := r.isLt
  unfold manyCount; omega

theorem guardHeader_absent {p : Word} (h : isEven a) (h' : ¬ (s.byteOk b a ∧ s.byteOk b (a + 1))) :
    s.guardHeader b a p o = .refused .absentMemory := by
  rw [State.guardHeader, require_pos ((evenAddr_iff a).2 h)]
  by_cases ha : s.byteOk b a
  · rw [State.guardByte_pos ha]
    exact State.guardByte_absent fun h1 => h' ⟨ha, h1⟩
  · exact State.guardByte_absent ha

theorem refusesHalf_guardHeader {p : Word} : s.refusesHalf b a u (s.guardHeader b a p o) :=
  ⟨fun h => require_neg (evenAddr_eq_false h), fun h h' _ => guardHeader_absent h h'⟩

/-- What follows a refused access is not reached. -/
theorem State.refusesHalf.andThen {k : State → Out} (h : s.refusesHalf b a u o) :
    s.refusesHalf b a u (Machine.andThen o k) := by
  obtain ⟨hodd, habsent⟩ := h
  exact ⟨fun h => by rw [hodd h]; rfl, fun h h' hu => by rw [habsent h h' hu]; rfl⟩

/-- A field restriction that is met leaves the refusals as they are. -/
theorem State.refusesHalf.require {ok : Bool} {r : Refusal} (h : s.refusesHalf b a u o) (hok : ok = true) :
    s.refusesHalf b a u (Machine.require ok r o) := by rwa [require_pos hok]

/-- Outside Protect Mode a privileged instruction is refused as its meaning is. -/
theorem State.refusesHalf.privileged (h : s.refusesHalf b a u o) (hp : s.psw.prot = false) :
    s.refusesHalf b a u (s.privileged o) := by rwa [privileged_pos hp]

end Refusals

/-! ### Reads of a device -/

/-- A read of a device is refused where storing its data is refused, but for a time-out that stores nothing (log 49). -/
theorem inputData_refused {len : Word} {d : Byte} {op : BusOp} {data : Word} {put : Word → State → Out} {s : State}
    {r : Refusal} (hput : ∀ v, put v (s.operate d op) = .refused r)
    (hstores : ¬ ((s.reply d).timeout = true ∧ s.params.timeoutDraws = false)) :
    inputData len d op data put s = .refused r := by
  unfold inputData
  cases ht : (s.reply d).timeout with
  | false => simp only [Bool.false_eq_true, if_false, hput]; rfl
  | true =>
    have hd : s.params.timeoutDraws = true := by simpa [ht] using hstores
    simp only [hd, if_true, hput]; rfl

theorem State.device_eq (s : State) (r : Nibble) : s.device r = (s.reg r).setWidth 8 := by
  unfold State.device lowByte
  exact (BitVec.setWidth_eq_extractLsb' (by decide)).symm

/-- RD and RH write nothing where the read times out and the parameter says so (93_implementation_defined.md U15,
log 49). -/
def State.unwritten (s : State) (r x : Nibble) (a : Word) (i : Instr) : Prop :=
  (i = .rd r x a ∨ i = .rh r x a) ∧ (s.reply ((s.reg r).setWidth 8)).timeout = true ∧ s.params.timeoutDraws = false

theorem State.unwritten_of_timeout {s : State} {r x : Nibble} {a : Word} {i : Instr}
    (hi : i = .rd r x a ∨ i = .rh r x a) (h : (s.reply (s.device r)).timeout = true ∧ s.params.timeoutDraws = false) :
    s.unwritten r x a i := by
  rw [State.device_eq] at h
  exact ⟨hi, h⟩

theorem exec_rd_absent {s : State} (hp : s.psw.prot = false) {r x : Nibble} {a : Word}
    (h : ¬ s.byteOk s.psw.obank (s.ea x a)) (hu : ¬ s.unwritten r x a (.rd r x a)) :
    exec (.rd r x a) s = .refused .absentMemory := by
  refine (privileged_pos hp).trans (inputData_refused (fun v => State.guardByte_absent h) fun ht => hu ?_)
  exact State.unwritten_of_timeout (.inl rfl) ht

/-- RH: an odd address is refused whatever the device answers, absent memory where the halfword is stored. -/
theorem exec_rh_refusesHalf {s : State} (hp : s.psw.prot = false) (r x : Nibble) (a : Word) :
    s.refusesHalf s.psw.obank (s.ea x a) (s.unwritten r x a (.rh r x a)) (exec (.rh r x a) s) := by
  refine State.refusesHalf.privileged ⟨fun h => require_neg (evenAddr_eq_false h), fun h h' hu => ?_⟩ hp
  rw [require_pos ((evenAddr_iff _).2 h)]
  refine inputData_refused (fun v => State.guardHalf_absent h h') fun ht => hu ?_
  exact State.unwritten_of_timeout (.inr rfl) ht

/-! ### The instructions with an operand in memory -/

theorem registersOk_of_wellFormed {i : Instr} (h : wellFormed i = true) : registersOk i = true :=
  (Bool.and_eq_true_iff.1 h).1

theorem zerosOk_of_wellFormed {i : Instr} (h : wellFormed i = true) : zerosOk i = true :=
  (Bool.and_eq_true_iff.1 h).2

/-- The instructions with a halfword or fullword operand in memory, each with the bank of its operand (20_memory.md
R65). -/
def State.halfOperands (s : State) (r x : Nibble) (a : Word) : List (Instr × Bank) :=
  let o := s.psw.obank
  [(.lh r x a, o), (.lh0 r x a, 0), (.lh1 r x a, 1), (.lh2 r x a, 2), (.lh3 r x a, 3), (.lm r x a, o),
    (.ldp r x a, o), (.sth r x a, o), (.sth0 r x a, 0), (.sth1 r x a, 1), (.sth2 r x a, 2), (.sth3 r x a, 3),
    (.stm r x a, o), (.stdp r x a, o), (.ah r x a, o), (.ahm r x a, o), (.ach r x a, o), (.adp r x a, o),
    (.sh r x a, o), (.sch r x a, o), (.sdp r x a, o), (.mh r x a, o), (.mhu r x a, o), (.mdp r x a, o),
    (.dh r x a, o), (.ddp r x a, o), (.nh r x a, o), (.oh r x a, o), (.xh r x a, o), (.clh r x a, o),
    (.cldp r x a, o), (.ch r x a, o), (.cdp r x a, o), (.le r x a, o), (.ste r x a, o), (.ae r x a, o),
    (.se r x a, o), (.ce r x a, o), (.me r x a, o), (.de r x a, o), (.lpsw r x a, o), (.rh r x a, o),
    (.wh r x a, o), (.rb r x a, o), (.wb r x a, o), (.atl r x a, o), (.abl r x a, o), (.rtl r x a, o),
    (.rbl r x a, o), (.cos r x a, o), (.asn r x a, o), (.atn r x a, o), (.sqd r x a, o), (.lch r x a, o),
    (.lcnh r x a, o), (.lav r x a, o)]

/-- An instruction of the list, where it is well-formed, first makes the access to its operand. -/
theorem exec_refusesHalf {s : State} (hp : s.psw.prot = false) (r x : Nibble) (a : Word) :
    ∀ p ∈ s.halfOperands r x a, wellFormed p.1 = true →
      s.refusesHalf p.2 (s.ea x a) (s.unwritten r x a p.1) (exec p.1 s) := by
  have many := manyCount_pos r
  exact List.forall_iff_forall_mem.1 ⟨
    -- LH, LH0 to LH3, LM, LDP
    fun _ => refusesHalf_guardHalf, fun _ => refusesHalf_guardHalf, fun _ => refusesHalf_guardHalf,
    fun _ => refusesHalf_guardHalf, fun _ => refusesHalf_guardHalf, fun _ => refusesHalf_guardHalves many,
    fun w => refusesHalf_guardFull.require (registersOk_of_wellFormed w),
    -- STH, STH0 to STH3, STM, STDP
    fun _ => refusesHalf_guardHalf.andThen, fun _ => refusesHalf_guardHalf.andThen,
    fun _ => refusesHalf_guardHalf.andThen, fun _ => refusesHalf_guardHalf.andThen,
    fun _ => refusesHalf_guardHalf.andThen, fun _ => refusesHalf_guardHalves many,
    fun w => refusesHalf_guardFull.andThen.require (registersOk_of_wellFormed w),
    -- AH, AHM, ACH, ADP, SH, SCH, SDP
    fun _ => refusesHalf_guardHalf, fun _ => refusesHalf_guardHalf, fun _ => refusesHalf_guardHalf,
    fun w => refusesHalf_guardFull.require (registersOk_of_wellFormed w),
    fun _ => refusesHalf_guardHalf, fun _ => refusesHalf_guardHalf,
    fun w => refusesHalf_guardFull.require (registersOk_of_wellFormed w),
    -- MH, MHU, MDP, DH, DDP
    fun w => refusesHalf_guardHalf.require (registersOk_of_wellFormed w),
    fun w => refusesHalf_guardHalf.require (registersOk_of_wellFormed w),
    fun w => refusesHalf_guardFull.require (registersOk_of_wellFormed w),
    fun w => refusesHalf_guardHalf.require (registersOk_of_wellFormed w),
    fun w => refusesHalf_guardFull.require (registersOk_of_wellFormed w),
    -- NH, OH, XH, CLH, CLDP, CH, CDP
    fun _ => refusesHalf_guardHalf, fun _ => refusesHalf_guardHalf, fun _ => refusesHalf_guardHalf,
    fun _ => refusesHalf_guardHalf, fun w => refusesHalf_guardFull.require (registersOk_of_wellFormed w),
    fun _ => refusesHalf_guardHalf, fun w => refusesHalf_guardFull.require (registersOk_of_wellFormed w),
    -- LE, STE, AE, SE, CE, ME, DE
    fun w => refusesHalf_guardFull.require (registersOk_of_wellFormed w),
    fun w => refusesHalf_guardFull.andThen.require (registersOk_of_wellFormed w),
    fun w => refusesHalf_guardFull.require (registersOk_of_wellFormed w),
    fun w => refusesHalf_guardFull.require (registersOk_of_wellFormed w),
    fun w => refusesHalf_guardFull.require (registersOk_of_wellFormed w),
    fun w => refusesHalf_guardFull.require (registersOk_of_wellFormed w),
    fun w => refusesHalf_guardFull.require (registersOk_of_wellFormed w),
    -- LPSW, RH, WH, RB, WB
    fun w => (refusesHalf_guardFull.require (zerosOk_of_wellFormed w)).privileged hp,
    fun _ => exec_rh_refusesHalf hp r x a, fun _ => refusesHalf_guardHalf.privileged hp,
    fun _ => refusesHalf_guardFull.privileged hp, fun _ => refusesHalf_guardFull.privileged hp,
    -- ATL, ABL, RTL, RBL
    fun _ => refusesHalf_guardHeader, fun _ => refusesHalf_guardHeader, fun _ => refusesHalf_guardHeader,
    fun _ => refusesHalf_guardHeader,
    -- COS, ASN, ATN, SQD
    fun w => refusesHalf_guardFull.require (registersOk_of_wellFormed w),
    fun w => refusesHalf_guardFull.require (registersOk_of_wellFormed w),
    fun w => refusesHalf_guardFull.require (registersOk_of_wellFormed w),
    fun w => refusesHalf_guardFull.require (registersOk_of_wellFormed w),
    -- LCH, LCNH, LAV
    fun _ => refusesHalf_guardHalf, fun _ => refusesHalf_guardHalf, fun _ => refusesHalf_guardHalf⟩

/-- An instruction with a byte operand is refused where that byte is not memory. -/
theorem exec_byte_absent {s : State} (hp : s.psw.prot = false) (r x : Nibble) (a : Word)
    (h : ¬ s.byteOk s.psw.obank (s.ea x a)) :
    ∀ i ∈ ([.lb r x a, .stb r x a, .clb r x a, .ai r x a, .ss r x a, .oc r x a, .rd r x a, .wd r x a] : List Instr),
      ¬ s.unwritten r x a i → exec i s = .refused .absentMemory := by
  have habsent {out : Out} : s.guardByte s.psw.obank (s.ea x a) out = .refused .absentMemory :=
    State.guardByte_absent h
  have hprivileged {out : Out} :
      s.privileged (s.guardByte s.psw.obank (s.ea x a) out) = .refused .absentMemory :=
    (privileged_pos hp).trans habsent
  have hstore {out : Out} {k : State → Out} :
      andThen (s.guardByte s.psw.obank (s.ea x a) out) k = .refused .absentMemory := by rw [habsent]; rfl
  exact List.forall_iff_forall_mem.1 ⟨fun _ => habsent, fun _ => hstore, fun _ => habsent, fun _ => hprivileged,
    fun _ => hprivileged, fun _ => hprivileged, exec_rd_absent hp h, fun _ => hprivileged⟩

/-! ### The fetch of an instruction -/

theorem State.dropMasked_eq (s : State) : s.dropMasked =
    { s with parityInstr := s.psw.mmEn && s.parityInstr, parityOperand := s.psw.mmEn && s.parityOperand } := by
  unfold State.dropMasked
  cases s.psw.mmEn <;> rfl

theorem State.dropMasked_psw (s : State) : s.dropMasked.psw = s.psw := by rw [State.dropMasked_eq]

theorem State.dropMasked_params (s : State) : s.dropMasked.params = s.params := by rw [State.dropMasked_eq]

/-- A parity signal that is dropped is one that was not enabled: the pending conditions are the same. -/
theorem State.pending_dropMasked (s : State) : s.dropMasked.pending = s.pending := by
  rw [State.dropMasked_eq]
  unfold State.pending
  cases s.psw.mmEn <;> rfl

/-- A boundary with no condition pending, the queue not to be read and the processor not waiting. -/
theorem State.boundary_of_quiet {s : State} {run : Instr → State → Out} (hq : s.pending = [])
    (hc : s.psw.ctEn = false) (hw : s.psw.wait = false) : s.boundary run = s.fetch run := by
  unfold State.boundary
  rw [State.guardQueue_pos (by simp [hc]), hq]
  simp [hw]

theorem step_eq_fetch {s : State} (ha : s.arrivals.headD [] = []) (hp : s.power = .running) (hq : s.quiet)
    (hc : s.psw.ctEn = false) (hw : s.psw.wait = false) : step s = s.begun.dropMasked.fetch exec := by
  rw [step_of_running ha hp]
  have hpsw : s.begun.dropMasked.psw = s.psw := State.dropMasked_psw _
  refine State.boundary_of_quiet ?_ (by rw [hpsw, hc]) (by rw [hpsw, hw])
  rw [State.pending_dropMasked]
  exact State.pending_eq_nil.2 hq

theorem State.fetch_odd {s : State} {run : Instr → State → Out} (h : ¬ isEven s.psw.lc) :
    s.fetch run = .refused .oddFetch := require_neg (evenAddr_eq_false h)

theorem State.fetch_absent {s : State} {run : Instr → State → Out} (h : isEven s.psw.lc)
    (h' : ¬ (s.byteOk s.psw.pbank s.psw.lc ∧ s.byteOk s.psw.pbank (s.psw.lc + 1))) :
    s.fetch run = .refused .absentMemory :=
  (require_pos ((evenAddr_iff _).2 h)).trans (require_neg (State.halfPresent_eq_false h'))

/-- Settles O47: the first access of each instruction is the one refused, and that of the fetch. -/
theorem refusedAccesses : Obligations.RefusedAccesses := by
  intro s
  refine ⟨fun hp r x a => ⟨exec_refusesHalf hp r x a, exec_byte_absent hp r x a⟩, fun ha hp hq hc hw => ?_⟩
  rw [step_eq_fetch ha hp hq hc hw]
  have hpsw : s.begun.dropMasked.psw = s.psw := State.dropMasked_psw _
  have hparams : s.begun.dropMasked.params = s.params := State.dropMasked_params _
  generalize s.begun.dropMasked = t at hpsw hparams ⊢
  simp only [State.byteOk, ← hpsw, ← hparams]
  exact ⟨State.fetch_odd, State.fetch_absent⟩

end Sys2Proof.Machine
end

section
/-! The encoder and the decoder are each other's inverse (30_encoding.md R101, R102, R111). -/

namespace Sys2Proof.Laws

/-! ### The fields of a halfword -/

/-- A halfword is its left byte and its right byte. -/
theorem append_bytes_self (w : Word) : w.extractLsb' 8 8 ++ w.extractLsb' 0 8 = w := Machine.append_halves (n := 8) w

/-- The operation code of a halfword is its left byte. -/
theorem opField_append (p q : Byte) : opField (p ++ q) = p := by
  apply BitVec.eq_of_getLsbD_eq
  intro i hi
  simp only [opField, BitVec.getLsbD_extractLsb', BitVec.getLsbD_append]
  simp [hi]

/-- A first halfword is made of its own fields. -/
theorem firstHalf_fields (w : Word) : firstHalf (opField w) (field1 w) (field2 w) = w := by
  apply BitVec.eq_of_getLsbD_eq
  intro i hi
  simp only [firstHalf, opField, field1, field2, BitVec.getLsbD_append, BitVec.getLsbD_extractLsb']
  by_cases h4 : i < 4
  · simp [h4]
  · by_cases h8 : i - 4 < 4
    · simp [h4, h8, show 4 + (i - 4) = i by omega]
    · simp [h4, h8, show i - 4 - 4 < 8 by omega, show 8 + (i - 4 - 4) = i by omega]

/-- Bit 1 of a first halfword, counted from the left, is the length bit of its operation code (R102). -/
theorem longCode_opField (w : Word) : longCode (opField w) = w.getMsbD 1 := by
  simp [longCode, opField, BitVec.getMsbD]

/-! ### What the operation-code map assigns is listed under that code -/

/-- The encoding that has the given fields, of the length that the code asks for. -/
def encodingOf (op : Byte) (a b : Nibble) (w2 : Word) : Encoding :=
  ⟨firstHalf op a b, if longCode op then some w2 else none⟩

theorem encodingOf_fields (w1 w2 : Word) : encodingOf (opField w1) (field1 w1) (field2 w1) w2 =
    ⟨w1, if w1.getMsbD 1 then some w2 else none⟩ := by
  rw [encodingOf, firstHalf_fields, longCode_opField]

theorem short_eq_encodingOf {op : Byte} (h : longCode op = false) (a b : Nibble) (w2 : Word) :
    short op a b = some (encodingOf op a b w2) := by
  rw [encodingOf, h]; rfl

theorem long_eq_encodingOf {op : Byte} (h : longCode op = true) (a b : Nibble) (w2 : Word) :
    long op a b w2 = some (encodingOf op a b w2) := by
  rw [encodingOf, h]; rfl

theorem listed_of_shortInstr {n : Nat} {a b : Nibble} {i : Instr} (h : shortInstr n a b = some i) :
    listed i = short (BitVec.ofNat 8 n) a b := by
  unfold shortInstr at h
  split at h <;> cases h <;> rfl

theorem listed_of_longInstr {n : Nat} {a b : Nibble} {w2 : Word} {i : Instr} (h : longInstr n a b w2 = some i) :
    listed i = long (BitVec.ofNat 8 n) a b w2 := by
  unfold longInstr at h
  split at h <;> cases h <;> rfl

theorem listed_of_assigned {op : Byte} {a b : Nibble} {w2 : Word} {i : Instr}
    (h : assignedInstr op a b w2 = some i) : listed i = some (encodingOf op a b w2) := by
  unfold assignedInstr at h
  split at h
  · next hop => rw [listed_of_longInstr h, BitVec.ofNat_toNat, BitVec.setWidth_eq, long_eq_encodingOf hop]
  · next hop =>
    rw [listed_of_shortInstr h, BitVec.ofNat_toNat, BitVec.setWidth_eq, short_eq_encodingOf (by simpa using hop)]

/-! ### The three lost instructions -/

/-- A code that no listing assigns means one of the three lost instructions, where its parameter names that code
(R115). -/
theorem unassigned_ok {op : Byte} {a b : Nibble} {w2 : Word} {i : Instr} (h : unassigned op a b w2 = .ok i) :
    (srqaOp = some op ∧ i = .srqa a b w2) ∨ (atnrOp = some op ∧ i = .atnr a b) ∨
      (sqdrOp = some op ∧ i = .sqdr a b) := by
  unfold unassigned at h
  split at h
  · split at h
    · next hop => exact .inl ⟨hop, (Except.ok.inj h).symm⟩
    · split at h <;> cases h
  · split at h
    · split at h
      · next hop => exact .inr (.inl ⟨hop, (Except.ok.inj h).symm⟩)
      · split at h
        · next hop => exact .inr (.inr ⟨hop, (Except.ok.inj h).symm⟩)
        · split at h <;> cases h
    · cases h

/-- SRQA is a fullword instruction, whichever candidate is its code. -/
theorem longCode_srqaCodes : ∀ op ∈ Config.srqaCodes.toList, longCode op = true := by decide

/-- ATNR and SQDR are halfword instructions, whichever candidates are their codes. -/
theorem longCode_trigCodes : ∀ op ∈ Config.trigCodes.toList, longCode op = false := by decide

theorem listed_of_unassigned {op : Byte} {a b : Nibble} {w2 : Word} {i : Instr} (h : unassigned op a b w2 = .ok i) :
    listed i = some (encodingOf op a b w2) := by
  obtain ⟨hop, rfl⟩ | ⟨hop, rfl⟩ | ⟨hop, rfl⟩ := unassigned_ok h
  · have hlong := longCode_srqaCodes op (RoundTrip.srqaOp_mem hop)
    rw [listed, hop, Option.bind_some, long_eq_encodingOf hlong]
  · have hshort := longCode_trigCodes op (RoundTrip.atnrOp_mem hop)
    rw [listed, hop, Option.bind_some, short_eq_encodingOf hshort]
  · obtain ⟨hmem, -⟩ := RoundTrip.sqdrOp_mem hop
    rw [listed, hop, Option.bind_some, short_eq_encodingOf (longCode_trigCodes op hmem)]

/-! ### Decoding, then encoding -/

theorem listed_of_decodeListed {op : Byte} {a b : Nibble} {w2 : Word} {i : Instr}
    (h : decodeListed op a b w2 = .ok i) : listed i = some (encodingOf op a b w2) := by
  unfold decodeListed at h
  split at h
  · next hi =>
    obtain rfl := Except.ok.inj h
    exact listed_of_assigned hi
  · exact listed_of_unassigned h

/-- Fields that decode to an instruction are of a code that is fitted. -/
theorem decodeFields_ok {ps : Params} {op : Byte} {a b : Nibble} {w2 : Word} {i : Instr}
    (h : decodeFields ps op a b w2 = .ok i) : fitted ps op = true ∧ decodeListed op a b w2 = .ok i := by
  unfold decodeFields at h
  split at h
  · next hf => exact ⟨hf, h⟩
  · cases h

/-- Settles O59: what the listings give back for the fields of a word that decodes is that word. -/
theorem encodeDecode : Obligations.EncodeDecode := by
  intro ps w1 w2 i h
  obtain ⟨hf, hd⟩ := decodeFields_ok h
  rw [encode, listed_of_decodeListed hd, encodingOf_fields]
  exact Option.filter_eq_some_iff.2 ⟨rfl, hf⟩

/-! ### Encoding, then decoding -/

/-- Every instruction has the round trip of its family. -/
theorem roundTrip (i : Instr) : RoundTrip.Statement i := by
  cases i with
  | srqa => exact RoundTrip.srqa _ _ _
  | atnr => exact RoundTrip.atnr _ _
  | sqdr => exact RoundTrip.sqdr _ _
  | lis | lcs | lhr | ldpr | ais | ahr | achr | adpr | sis | shr | schr | sdpr | mhr | mhur | mdpr | dhr | ddpr
  | nhr | ohr | xhr | clhr | cldpr | chr | cdpr | lbr | stbr | exbr | slls | srls | btbs | btfs | btcr | bfbs
  | bffs | bfcr | balr | ler | aer | ser | cer | mer | der | epor | eppr | epsr | air | ssr | ocr | rdr | wdr
  | rhr | whr | rbr | wbr | ecpr | cosr | asnr | lchr | lcnhr | lavr | lfr | afr | sfr | cfr | mfr | dfr =>
    exact RoundTrip.of_short rfl fun _ => rfl
  | _ => exact RoundTrip.of_long rfl rfl

/-- An encoding has a second halfword exactly when bit 1 of its first one is set (R102). -/
theorem encode_second_isSome {ps : Params} {i : Instr} {e : Encoding} (h : encode ps i = some e) :
    e.second.isSome = e.first.getMsbD 1 := by
  have hback := encodeDecode ps e.first (e.second.getD 0) i (roundTrip i ps e h 0)
  have he := Option.some.inj (h.symm.trans hback)
  rw [he]
  cases e.first.getMsbD 1 <;> rfl

/-- The bytes of a halfword instruction decode as the halfword does. -/
theorem decodeBytes_halfword {ps : Params} {w : Word} (h : w.getMsbD 1 = false) (rest : List Byte) :
    decodeBytes ps (w.extractLsb' 8 8 :: w.extractLsb' 0 8 :: rest) = withRest rest (decode ps w 0) := by
  have hlong : longCode (w.extractLsb' 8 8) = false := (longCode_opField w).trans h
  refine (if_neg (Bool.eq_false_iff.1 hlong)).trans ?_
  rw [append_bytes_self]

/-- The bytes of a fullword instruction decode as its two halfwords do. -/
theorem decodeBytes_fullword {ps : Params} {w1 : Word} (h : w1.getMsbD 1 = true) (w2 : Word) (rest : List Byte) :
    decodeBytes ps (w1.extractLsb' 8 8 :: w1.extractLsb' 0 8 :: w2.extractLsb' 8 8 :: w2.extractLsb' 0 8 :: rest) =
      withRest rest (decode ps w1 w2) := by
  have hlong : longCode (w1.extractLsb' 8 8) = true := (longCode_opField w1).trans h
  refine (if_pos hlong).trans ?_
  rw [append_bytes_self, append_bytes_self]

/-- Settles O58: by the round trip of each instruction, in the length that its code says. -/
theorem decodeEncode : Obligations.DecodeEncode := by
  intro ps i e rest h
  have hsecond := encode_second_isSome h
  have hdecode := roundTrip i ps e h 0
  refine ⟨?_, by rw [hsecond]⟩
  obtain ⟨w1, second⟩ := e
  cases second with
  | none => exact (decodeBytes_halfword hsecond.symm rest).trans (congrArg (withRest rest) hdecode)
  | some w2 => exact (decodeBytes_fullword hsecond.symm w2 rest).trans (congrArg (withRest rest) hdecode)

end Sys2Proof.Laws
end

section
/-! The step that fetches: in a state whose next step is an instruction, the halfwords at PBANK:LC decide what the step
is (30_encoding.md R109, R113, 60_exceptions.md R452, R466). -/

namespace Sys2Proof.Machine

/-! ### The fetch -/

/-- A state with neither parity signal up has none to drop. -/
theorem State.dropMasked_eq_self {s : State} (hi : s.parityInstr = false) (ho : s.parityOperand = false) :
    s.dropMasked = s := by
  cases s
  dsimp only at hi ho
  rw [State.dropMasked_eq]
  simp only [hi, ho, Bool.and_false]

/-- The next step of a ready state is the fetch, its boundary passed. -/
theorem State.Ready.step_eq_fetch {s : State} (h : s.Ready) : step s = s.begun.fetch exec := by
  have hdrop : s.begun.dropMasked = s.begun := State.dropMasked_eq_self h.parityInstr h.parityOperand
  have hpending : s.begun.pending = [] := State.pending_eq_nil.2 h.quiet
  have hwait : ¬ s.begun.psw.wait = true := Bool.eq_false_iff.1 h.wait
  rw [step_of_running h.arrivals h.power, hdrop, State.boundary, State.guardQueue_pos (s := s.begun) h.queue, hpending]
  exact if_neg hwait

variable {s : State} {run : Instr → State → Out}

/-- What a fetch decodes: the halfwords at PBANK:LC. -/
def State.fetched (s : State) : Except DecodeError Instr :=
  decode s.params (s.halfAt s.psw.pbank s.psw.lc) (s.halfAt s.psw.pbank (s.psw.lc + 2))

/-- A fetch of an instruction runs it, where its second halfword is memory or is not fetched. -/
theorem State.fetch_instr {i : Instr} (hlc : s.halfOk s.psw.pbank s.psw.lc) (hd : s.fetched = .ok i)
    (h2 : secondFetched (s.halfAt s.psw.pbank s.psw.lc) = true → s.halfOk s.psw.pbank (s.psw.lc + 2)) :
    s.fetch run = run i s := by
  obtain ⟨heven, hpresent⟩ := hlc
  unfold State.fetched at hd
  unfold State.fetch
  rw [require_pos ((evenAddr_iff _).2 heven), require_pos (State.halfPresent_iff.2 hpresent), hd]
  refine require_pos ?_
  cases hs : secondFetched (s.halfAt s.psw.pbank s.psw.lc) with
  | false => rfl
  | true =>
    obtain ⟨-, hsecond⟩ := h2 hs
    exact State.halfPresent_iff.2 hsecond

/-- A fetch of an illegal code takes Illegal Instruction. -/
theorem State.fetch_illegal {op : Byte} (hlc : s.halfOk s.psw.pbank s.psw.lc)
    (hd : s.fetched = .error (.illegalOpcode op)) : s.fetch run = .next s.raiseIllegal := by
  obtain ⟨heven, hpresent⟩ := hlc
  unfold State.fetched at hd
  unfold State.fetch
  rw [require_pos ((evenAddr_iff _).2 heven), require_pos (State.halfPresent_iff.2 hpresent), hd]

/-- Settles O49: nothing comes between the boundary of a ready state and the instruction it fetches. -/
theorem stepRunsDecoded : Obligations.StepRunsDecoded := by
  intro s i hready w1 hd h2
  rw [hready.step_eq_fetch]
  exact State.fetch_instr (s := s.begun) hready.lc hd h2

/-! ### Illegal codes -/

/-- The codes that no listing assigns and that cannot be a lost one (30_encoding.md R113). -/
def illegalCodes : List Nat :=
  [0x00, 0x13, 0x14, 0x16, 0x17, 0x1E, 0x1F, 0x30, 0x31, 0x32, 0x33, 0x34,
    0x35, 0x36, 0x37, 0x3E, 0x3F, 0x54, 0x56, 0x57, 0x5E, 0x5F, 0x62, 0x63, 0x6E, 0x6F, 0x71, 0x72, 0x73, 0x7E,
    0x7F, 0xA0, 0xA1, 0xA2, 0xA3, 0xA4, 0xA5, 0xA6, 0xA7, 0xA8, 0xA9, 0xAA, 0xAB, 0xAC, 0xAD, 0xAE, 0xAF, 0xB0,
    0xB1, 0xB2, 0xB3, 0xB4, 0xB5, 0xB6, 0xB7, 0xB8, 0xB9, 0xBA, 0xBB, 0xBC, 0xBD, 0xBE, 0xBF, 0xF0, 0xF5, 0xF6,
    0xF7, 0xFC, 0xFD, 0xFE, 0xFF]

/-- The codes of the trigonometric option, the candidates of its two lost ones among them. -/
def trigOpcodes : List Nat :=
  [0x80, 0x81, 0x82, 0x83, 0x84, 0x85, 0x86, 0x87, 0x88, 0x89, 0x8A, 0x8B, 0x8C, 0x8D, 0x8E, 0x8F, 0xF1, 0xF2, 0xF3,
    0xF4]

/-- The operation-code map has nothing under these codes, whatever the fields. -/
theorem assignedInstr_illegalCodes (a b : Nibble) (w2 : Word) :
    ∀ n ∈ illegalCodes, (assignedInstr (BitVec.ofNat 8 n) a b w2).isNone = true :=
  List.all_eq_true.1 rfl

/-- None of these codes is a candidate of a lost instruction. -/
theorem not_candidate_illegalCodes : ∀ n ∈ illegalCodes,
    ¬ Config.srqaCodes.toList.contains (BitVec.ofNat 8 n) = true ∧
      ¬ Config.trigCodes.toList.contains (BitVec.ofNat 8 n) = true := by decide

theorem unassigned_of_not_candidate {op : Byte} (hs : ¬ Config.srqaCodes.toList.contains op = true)
    (ht : ¬ Config.trigCodes.toList.contains op = true) (a b : Nibble) (w2 : Word) :
    unassigned op a b w2 = .error (.illegalOpcode op) := by
  rw [unassigned, if_neg hs, if_neg ht]

theorem decodeListed_illegal {op : Byte} (h : op.toNat ∈ illegalCodes) (a b : Nibble) (w2 : Word) :
    decodeListed op a b w2 = .error (.illegalOpcode op) := by
  have hnone := assignedInstr_illegalCodes a b w2 _ h
  have hcand := not_candidate_illegalCodes _ h
  rw [BitVec.ofNat_toNat, BitVec.setWidth_eq] at hnone hcand
  obtain ⟨hs, ht⟩ := hcand
  rw [decodeListed, Option.isNone_iff_eq_none.1 hnone]
  exact unassigned_of_not_candidate hs ht a b w2

theorem trigCode_of_mem : ∀ op : Byte, op.toNat ∈ trigOpcodes → trigCode op = true := by decide

theorem augmentCode_of_mem {op : Byte} (h : op.toNat ∈ [0x10, 0x11, 0x12, 0x51, 0x52, 0x53, 0xE3, 0xE4]) :
    augmentCode op = true := List.contains_iff_mem.2 h

/-- A code of an option that is not fitted is illegal (49_list_trig_augment.md R416, R430). -/
theorem decodeFields_not_fitted {ps : Params} {op : Byte} (h : fitted ps op = false) (a b : Nibble) (w2 : Word) :
    decodeFields ps op a b w2 = .error (.illegalOpcode op) := by
  rw [decodeFields, h]; rfl

theorem fitted_eq_false_of_trig {ps : Params} {op : Byte} (hp : ps.hasTrig = false) (h : trigCode op = true) :
    fitted ps op = false := by
  simp [fitted, hp, h]

theorem fitted_eq_false_of_augment {ps : Params} {op : Byte} (hp : ps.hasAugment = false)
    (h : augmentCode op = true) : fitted ps op = false := by
  simp [fitted, hp, h]

/-- A code that no listing assigns is illegal in every fitting. -/
theorem decodeFields_illegal {ps : Params} {op : Byte} (h : op.toNat ∈ illegalCodes) (a b : Nibble) (w2 : Word) :
    decodeFields ps op a b w2 = .error (.illegalOpcode op) := by
  cases hf : fitted ps op with
  | true => rw [Laws.decodeFields_fitted hf, decodeListed_illegal h]
  | false => exact decodeFields_not_fitted hf a b w2

/-- What is fetched has the byte at PBANK:LC as its operation code. -/
theorem State.fetched_eq (s : State) : s.fetched =
    decodeFields s.params (s.byteAt s.psw.pbank s.psw.lc) (field1 (s.halfAt s.psw.pbank s.psw.lc))
      (field2 (s.halfAt s.psw.pbank s.psw.lc)) (s.halfAt s.psw.pbank (s.psw.lc + 2)) := by
  rw [State.fetched, decode, show opField (s.halfAt s.psw.pbank s.psw.lc) = _ from Laws.opField_append ..]

/-- Settles O48: each of the codes is illegal where it is fetched, and the exchange stores the PSW as it was. -/
theorem illegalInstruction : Obligations.IllegalInstruction := by
  intro s hm hready op hop
  have hfetched : s.fetched = .error (.illegalOpcode (s.byteAt s.psw.pbank s.psw.lc)) := by
    rw [State.fetched_eq]
    obtain h | ⟨hp, h⟩ | ⟨hp, h⟩ := hop
    · exact decodeFields_illegal h ..
    · exact decodeFields_not_fitted (fitted_eq_false_of_augment hp (augmentCode_of_mem h)) ..
    · exact decodeFields_not_fitted (fitted_eq_false_of_trig hp (trigCode_of_mem _ h)) ..
  refine ⟨s.begun.raiseIllegal, ?_, State.swapped_exchange (s := s.begun) hm 0x0030 0x0034 s.psw.lc (by decide)⟩
  rw [hready.step_eq_fetch]
  exact State.fetch_illegal (s := s.begun) hready.lc hfetched

end Sys2Proof.Machine
end

section
/-! Broken field restrictions, refused by name outside Protect Mode (30_encoding.md R105, R109, 10_state.md R22). -/

namespace Sys2Proof.Machine

variable {s : State}

/-- Each instruction with a register-field restriction tests it first; RBR and WBR are privileged besides (log 6). -/
theorem exec_registerField (hp : s.psw.prot = false) :
    ∀ i, registersOk i = false → exec i s = .refused .registerField
  | .ldpr .., h | .ldp .., h | .stdp .., h | .adpr .., h | .adp .., h | .sdpr .., h | .sdp .., h | .mhr .., h
  | .mh .., h | .mhur .., h | .mhu .., h | .mdpr .., h | .mdp .., h | .dhr .., h | .dh .., h | .ddpr .., h
  | .ddp .., h | .cldpr .., h | .cldp .., h | .cdpr .., h | .cdp .., h | .sll .., h | .slql .., h | .srl .., h
  | .srql .., h | .rll .., h | .rrl .., h | .sla .., h | .slqa .., h | .sra .., h | .srqa .., h | .bxh .., h
  | .bxle .., h | .ler .., h | .le .., h | .ste .., h | .aer .., h | .ae .., h | .ser .., h | .se .., h
  | .cer .., h | .ce .., h | .mer .., h | .me .., h | .der .., h | .de .., h | .eppr .., h | .cosr .., h
  | .cos .., h | .asnr .., h | .asn .., h | .atnr .., h | .atn .., h | .sqdr .., h | .sqd .., h => require_neg h
  | .rbr .., h | .wbr .., h => (privileged_pos hp).trans (require_neg h)

/-- The five instructions with a must-be-zero field are privileged and test it next (log 7). -/
theorem exec_mustBeZero (hp : s.psw.prot = false) : ∀ i, zerosOk i = false → exec i s = .refused .mustBeZero
  | .lpsw .., h | .sint .., h | .al .., h | .sesb .., h | .resb .., h => (privileged_pos hp).trans (require_neg h)

/-- Settles O46: a broken restriction is refused before the instruction reads or changes anything else. -/
theorem fieldRestrictions : Obligations.FieldRestrictions :=
  fun i _ hp => ⟨exec_registerField hp i, exec_mustBeZero hp i⟩

end Sys2Proof.Machine
end

section
/-! Loads and stores of registers (40_load_store.md R140 to R159, 46_floating_point.md R307), and words printed in the
spec with their instructions. -/

namespace Sys2Proof.Machine

/-! ### Loads -/

/-- What a halfword load leaves: the halfword, G and L its sign, the next instruction (R140). -/
theorem loadHalf_putsHalf (s : State) (len : Word) (r : Nibble) (v : Word) :
    s.putsHalf (loadHalf len r v s) len r v (signFlags v) := State.putsHalf_drawn (s.loadCc_signFlags v)

/-- What a fullword load leaves: the fullword in the pair, G and L its sign, the next instruction (R140). -/
theorem loadFull_putsPair (s : State) (len : Word) (r : Nibble) (v : Full) :
    s.putsPair (loadFull len r v s) len r v (signFlags v) := State.putsPair_drawn (s.loadCc_signFlags v)

theorem loadFrom_pos {s : State} {b : Bank} {x2 : Nibble} {a2 : Word} (r1 : Nibble) (h : s.halfOk b (s.ea x2 a2)) :
    loadFrom b r1 x2 a2 s = .next (loadHalf len4 r1 (s.halfAt b (s.ea x2 a2)) s) := State.guardHalf_pos h

/-- The five loads from memory are one load, each from its own bank (R145 to R149). -/
theorem exec_eq_loadFrom (s : State) (r1 x2 : Nibble) (a2 : Word) :
    ∀ p ∈ [(Instr.lh r1 x2 a2, s.psw.obank), (.lh0 r1 x2 a2, 0), (.lh1 r1 x2 a2, 1), (.lh2 r1 x2 a2, 2),
      (.lh3 r1 x2 a2, 3)], exec p.1 s = loadFrom p.2 r1 x2 a2 s :=
  List.forall_iff_forall_mem.1 ⟨rfl, rfl, rfl, rfl, rfl⟩

/-- Settles O1: every halfword load ends in `loadHalf`, and the memory forms reach it where their operand is memory. -/
theorem loadHalfword : Obligations.LoadHalfword := by
  intro s r1
  refine ⟨fun n => ?lis, fun n => ?lcs, fun r2 => ?lhr, fun x2 i2 => ?lhi, fun x2 a2 p hp hok => ?lh⟩
  case lis | lcs | lhr | lhi => exact ⟨_, rfl, loadHalf_putsHalf ..⟩
  case lh => exact ⟨_, (exec_eq_loadFrom s r1 x2 a2 p hp).trans (loadFrom_pos r1 hok), loadHalf_putsHalf ..⟩

/-! ### Stores -/

theorem State.writeHalf_pos {s : State} {b : Bank} {a : Word} (v : Word) (h : s.halfOk b a) :
    s.writeHalf b a v = .next (s.setHalf b a v) := State.guardHalf_pos h

theorem State.writeFull_pos {s : State} {b : Bank} {a : Word} (v : Full) (h : s.fullOk b a) :
    s.writeFull b a v = .next (s.setFull b a v) := State.guardFull_pos h

/-- A halfword stored, the Condition Code kept, then the next instruction. -/
theorem State.storesHalf_kept {s : State} (hm : Memory.wf s.mem = true) (b : Bank) (a v : Word) :
    s.storesHalf ((s.setHalf b a v).advance len4) b a v :=
  ⟨State.halfAt_setHalf_self hm b a v, rfl, (State.Keeps.storeHalf b a v).of_eq rfl rfl rfl⟩

/-- A fullword stored, the Condition Code kept, then the next instruction. -/
theorem State.storesFull_kept {s : State} (hm : Memory.wf s.mem = true) (b : Bank) (a : Word) (v : Full) :
    s.storesFull ((s.setFull b a v).advance len4) b a v :=
  ⟨State.fullAt_setFull_self hm b a v, rfl, (State.Keeps.storeFull b a v).of_eq rfl rfl rfl⟩

theorem storeInto_pos {s : State} {b : Bank} {x2 : Nibble} {a2 : Word} (r1 : Nibble) (h : s.halfOk b (s.ea x2 a2)) :
    storeInto b r1 x2 a2 s = .next ((s.setHalf b (s.ea x2 a2) (s.reg r1)).advance len4) := by
  rw [storeInto, State.writeHalf_pos _ h]; rfl

/-- The five stores of a halfword are one store, each into its own bank (R153 to R157). -/
theorem exec_eq_storeInto (s : State) (r1 x2 : Nibble) (a2 : Word) :
    ∀ p ∈ [(Instr.sth r1 x2 a2, s.psw.obank), (.sth0 r1 x2 a2, 0), (.sth1 r1 x2 a2, 1), (.sth2 r1 x2 a2, 2),
      (.sth3 r1 x2 a2, 3)], exec p.1 s = storeInto p.2 r1 x2 a2 s :=
  List.forall_iff_forall_mem.1 ⟨rfl, rfl, rfl, rfl, rfl⟩

/-- Settles O3: the five stores are `storeInto`, whose halfword reads back in the canonical form. -/
theorem storeHalfword : Obligations.StoreHalfword := fun s r1 x2 a2 hm p hp hok =>
  ⟨_, (exec_eq_storeInto s r1 x2 a2 p hp).trans (storeInto_pos r1 hok), State.storesHalf_kept hm ..⟩

/-! ### Fullwords -/

theorem evenReg_of_isEven {r : Nibble} (h : isEven r) : evenReg r = true := (evenReg_iff r).2 h

theorem execLdpr_pos {s : State} {r1 r2 : Nibble} (h1 : isEven r1) (h2 : isEven r2) :
    execLdpr r1 r2 s = .next (loadFull len2 r1 (s.pair r2) s) :=
  require_pos (Bool.and_eq_true_iff.2 ⟨evenReg_of_isEven h1, evenReg_of_isEven h2⟩)

section Operand

variable {s : State} {r1 x2 : Nibble} {a2 : Word} (h1 : isEven r1) (h : s.fullOk s.psw.obank (s.ea x2 a2))

include h1 h

theorem execLdp_pos : execLdp r1 x2 a2 s = .next (loadFull len4 r1 (s.fullAt s.psw.obank (s.ea x2 a2)) s) :=
  (require_pos (evenReg_of_isEven h1)).trans (State.guardFull_pos h)

theorem execStdp_pos :
    execStdp r1 x2 a2 s = .next ((s.setFull s.psw.obank (s.ea x2 a2) (s.pair r1)).advance len4) := by
  rw [execStdp, require_pos (evenReg_of_isEven h1), State.writeFull_pos _ h]; rfl

theorem execSte_pos :
    execSte r1 x2 a2 s = .next ((s.setFull s.psw.obank (s.ea x2 a2) (s.fpReg r1)).advance len4) := by
  rw [execSte, require_pos (evenReg_of_isEven h1), State.writeFull_pos _ h]; rfl

end Operand

/-- Settles O2: the register restriction and the operand's guard are met, and what is left is one load or store. -/
theorem fullwordTransfers : Obligations.FullwordTransfers := by
  intro s r1 h1
  refine ⟨fun r2 h2 => ?ldpr, fun x2 a2 hok => ⟨?ldp, fun hm => ⟨?stdp, ?ste⟩⟩⟩
  case ldpr => exact ⟨_, execLdpr_pos h1 h2, loadFull_putsPair ..⟩
  case ldp => exact ⟨_, execLdp_pos h1 hok, loadFull_putsPair ..⟩
  case stdp => exact ⟨_, execStdp_pos h1 hok, State.storesFull_kept hm ..⟩
  case ste => exact ⟨_, execSte_pos h1 hok, State.storesFull_kept hm ..⟩

/-! ### LM and STM -/

/-- From R1 on there are as many registers as LM and STM transfer, none past register 15 (R150, R158). -/
theorem manyCount_add (r1 : Nibble) : manyCount r1 + r1.toNat = 16 := by
  have := r1.isLt
  unfold manyCount
  omega

theorem lt_add_manyCount (r1 r : Nibble) : r.toNat < r1.toNat + manyCount r1 := by
  have := manyCount_add r1
  have := r.isLt
  omega

theorem loadMany_psw (b : Bank) (n : Nat) (r : Nibble) (a : Word) (s : State) : (loadMany b n r a s).psw = s.psw := by
  rw [loadMany_same]

theorem storeMany_psw (b : Bank) (n : Nat) (r : Nibble) (a : Word) (s : State) :
    (storeMany b n r a s).psw = s.psw := by rw [storeMany_same]

/-- Going on to the next instruction from a state with the PSW of `s` changes the Location Counter alone. -/
theorem State.lcOnly_advance {s t : State} (h : t.psw = s.psw) (len : Word) :
    s.lcOnly (t.advance len) (s.psw.lc + len) := by
  show { t.psw with lc := t.psw.lc + len } = _
  rw [h]

/-- LM: each register from R1 on holds the halfword of its place, and nothing else changes (R150). -/
theorem loadMany_manyCount (s : State) (b : Bank) (r1 : Nibble) (a : Word) :
    (∀ r : Nibble, r1.toNat ≤ r.toNat →
      (loadMany b (manyCount r1) r1 a s).reg r = s.halfAt b (a + 2 * (r - r1).setWidth 16)) ∧
    s.Keeps (loadMany b (manyCount r1) r1 a s) (registersFrom r1) nowhere :=
  ⟨fun r hr => loadMany_reg b _ r1 a s r (manyCount_add r1).le hr (lt_add_manyCount r1 r),
    loadMany_keeps b _ r1 a s _ (manyCount_add r1).le fun r hr => (mem_registersFrom r1 r).2 hr⟩

/-- STM: the halfword of each register's place holds the register, and no other byte changes (R158). -/
theorem storeMany_manyCount {s : State} (hm : Memory.wf s.mem = true) (b : Bank) (r1 : Nibble) (a : Word) :
    (∀ r : Nibble, r1.toNat ≤ r.toNat →
      (storeMany b (manyCount r1) r1 a s).halfAt b (a + 2 * (r - r1).setWidth 16) = s.reg r) ∧
    s.Keeps (storeMany b (manyCount r1) r1 a s) [] (span b a (2 * manyCount r1)) :=
  ⟨fun r hr => storeMany_halfAt b _ r1 a s r hm (manyCount_add r1).le hr (lt_add_manyCount r1 r),
    storeMany_keeps b _ r1 a s _ (manyCount_add r1).le fun _ _ k => k⟩

/-- Settles O4: all accesses are checked first, then the transfer runs over the registers from R1 on. -/
theorem multipleTransfer : Obligations.MultipleTransfer := by
  intro s r1 x2 a2 hm hok
  refine ⟨⟨_, State.guardHalves_pos hok, ?lm⟩, ⟨_, State.guardHalves_pos hok, ?stm⟩⟩
  case lm =>
    obtain ⟨hregs, hkeeps⟩ := loadMany_manyCount s s.psw.obank r1 (s.ea x2 a2)
    exact ⟨hregs, State.lcOnly_advance (loadMany_psw ..) _, hkeeps.of_eq rfl rfl rfl⟩
  case stm =>
    obtain ⟨hhalves, hkeeps⟩ := storeMany_manyCount hm s.psw.obank r1 (s.ea x2 a2)
    exact ⟨hhalves, State.lcOnly_advance (storeMany_psw ..) _, hkeeps.of_eq rfl rfl rfl⟩

end Sys2Proof.Machine

namespace Sys2Proof.Laws

/-- Settles O60: each word is the encoding of the instruction printed beside it, which the decoder gives back. -/
theorem decodeExamples : Obligations.DecodeExamples :=
  ⟨roundTrip (.lis 3 7) Params.default ⟨0x2437, none⟩ rfl 0,
    roundTrip (.lhi 6 2 0xFFFE) Params.default ⟨0xC862, some 0xFFFE⟩ rfl 0,
    roundTrip (.lh 1 0 0x0050) Params.default ⟨0x4810, some 0x0050⟩ rfl 0,
    roundTrip (.ais 1 1) Params.default ⟨0x2611, none⟩ rfl 0,
    roundTrip (.rll 2 0 0x0010) Params.default ⟨0xEB20, some 0x0010⟩ rfl 0,
    roundTrip (.balr 15 5) Params.default ⟨0x01F5, none⟩ rfl 0,
    roundTrip (.ler 0 2) Params.default ⟨0x2802, none⟩ rfl 0,
    roundTrip (.epor 3 0) Params.default ⟨0x2E30, none⟩ rfl 0,
    roundTrip (.ssr 1 2) Params.default ⟨0x9D12, none⟩ rfl 0,
    roundTrip (.atl 1 0 0x0400) Params.default ⟨0x6410, some 0x0400⟩ rfl 0⟩

end Sys2Proof.Laws
end

section
/-! Fixed-point arithmetic (41_arithmetic.md R170 to R200, 60_exceptions.md R462): what the shared endings leave, then
the instructions, each of which reaches one of them once its operands are checked. -/

namespace Sys2Proof.Machine

variable {s : State} {len : Word} {r1 r2 x2 : Nibble} {a2 : Word}

/-! ### Operands and register restrictions -/

theorem State.operandHalf_pos {k : Word → Out} (h : s.halfOk s.psw.obank (s.ea x2 a2)) :
    s.operandHalf x2 a2 k = k (s.halfAt s.psw.obank (s.ea x2 a2)) := State.guardHalf_pos h

theorem State.operandFull_pos {k : Full → Out} (h : s.fullOk s.psw.obank (s.ea x2 a2)) :
    s.operandFull x2 a2 k = k (s.fullAt s.psw.obank (s.ea x2 a2)) := State.guardFull_pos h

theorem evenReg_and_of_isEven (h1 : isEven r1) (h2 : isEven r2) : (evenReg r1 && evenReg r2) = true :=
  Bool.and_eq_true_iff.2 ⟨evenReg_of_isEven h1, evenReg_of_isEven h2⟩

theorem quadReg_of_isEven (h1 : isEven r1) (h12 : r1.toNat ≤ 12) : quadReg r1 = true := (quadReg_iff r1).2 ⟨h1, h12⟩

theorem quadReg_and_of_isEven (h1 : isEven r1) (h12 : r1.toNat ≤ 12) (h2 : isEven r2) :
    (quadReg r1 && evenReg r2) = true :=
  Bool.and_eq_true_iff.2 ⟨quadReg_of_isEven h1 h12, evenReg_of_isEven h2⟩

/-- The halfword operand of an instruction whose R1 names a pair. -/
theorem requireEven_operandHalf_pos {k : Word → Out} (h1 : isEven r1) (h : s.halfOk s.psw.obank (s.ea x2 a2)) :
    require (evenReg r1) .registerField (s.operandHalf x2 a2 k) = k (s.halfAt s.psw.obank (s.ea x2 a2)) :=
  (require_pos (evenReg_of_isEven h1)).trans (State.operandHalf_pos h)

/-- The fullword operand of an instruction whose R1 names a pair. -/
theorem requireEven_operandFull_pos {k : Full → Out} (h1 : isEven r1) (h : s.fullOk s.psw.obank (s.ea x2 a2)) :
    require (evenReg r1) .registerField (s.operandFull x2 a2 k) = k (s.fullAt s.psw.obank (s.ea x2 a2)) :=
  (require_pos (evenReg_of_isEven h1)).trans (State.operandFull_pos h)

/-- The fullword operand of an instruction whose R1 names a quad. -/
theorem requireQuad_operandFull_pos {k : Full → Out} (h1 : isEven r1) (h12 : r1.toNat ≤ 12)
    (h : s.fullOk s.psw.obank (s.ea x2 a2)) :
    require (quadReg r1) .registerField (s.operandFull x2 a2 k) = k (s.fullAt s.psw.obank (s.ea x2 a2)) :=
  (require_pos (quadReg_of_isEven h1 h12)).trans (State.operandFull_pos h)

/-! ### Sums and differences -/

theorem putHalf_addFlags (s : State) (len : Word) (r : Nibble) (a b : Word) :
    s.putsHalf (putHalf len r (addFlags a b false) s) len r (a + b) (sumFlags a b) :=
  addFlags_value a b ▸ State.putsHalf_set (addFlags_sumFlags a b)

theorem putHalf_subFlags (s : State) (len : Word) (r : Nibble) (a b : Word) :
    s.putsHalf (putHalf len r (subFlags a b false) s) len r (a - b) (differenceFlags a b) :=
  subFlags_value a b ▸ State.putsHalf_set (subFlags_differenceFlags a b)

theorem putFull_addFlags (s : State) (len : Word) (r : Nibble) (a b : Full) :
    s.putsPair (putFull len r (addFlags a b false) s) len r (a + b) (sumFlags a b) :=
  addFlags_value a b ▸ State.putsPair_set (addFlags_sumFlags a b)

theorem putFull_subFlags (s : State) (len : Word) (r : Nibble) (a b : Full) :
    s.putsPair (putFull len r (subFlags a b false) s) len r (a - b) (differenceFlags a b) :=
  subFlags_value a b ▸ State.putsPair_set (subFlags_differenceFlags a b)

/-- Settles O5: the sum goes to R1, and for AHM to the halfword of memory that held the second operand. -/
theorem addHalfword : Obligations.AddHalfword := by
  intro s r1
  refine ⟨fun n => ?ais, fun r2 => ?ahr, fun x2 i2 => ?ahi, fun x2 a2 hok => ⟨?ah, fun hm => ?ahm⟩⟩
  case ais | ahr | ahi => exact ⟨_, rfl, putHalf_addFlags ..⟩
  case ah => exact ⟨_, show execAh r1 x2 a2 s = _ from State.operandHalf_pos hok, putHalf_addFlags ..⟩
  case ahm =>
    exact ⟨_, show execAhm r1 x2 a2 s = _ from State.operandHalf_pos hok,
      (State.halfAt_setHalf_self hm ..).trans (addFlags_value ..), addFlags_sumFlags .., rfl,
      (State.Keeps.storeHalf ..).of_eq rfl rfl rfl⟩

/-- Settles O6: the difference goes to R1 in every form. -/
theorem subtractHalfword : Obligations.SubtractHalfword := by
  intro s r1
  refine ⟨fun n => ?sis, fun r2 => ?shr, fun x2 i2 => ?shi, fun x2 a2 hok => ?sh⟩
  case sis | shr | shi => exact ⟨_, rfl, putHalf_subFlags ..⟩
  case sh => exact ⟨_, show execSh r1 x2 a2 s = _ from State.operandHalf_pos hok, putHalf_subFlags ..⟩

/-- Settles O7: the register restriction and the operand's guard are met, and the result goes to the pair. -/
theorem addSubtractFullword : Obligations.AddSubtractFullword := by
  intro s r1 h1
  refine ⟨fun r2 h2 => ⟨?adpr, ?sdpr⟩, fun x2 a2 hok => ⟨?adp, ?sdp⟩⟩
  case adpr => exact ⟨_, require_pos (evenReg_and_of_isEven h1 h2), putFull_addFlags ..⟩
  case sdpr => exact ⟨_, require_pos (evenReg_and_of_isEven h1 h2), putFull_subFlags ..⟩
  case adp => exact ⟨_, requireEven_operandFull_pos h1 hok, putFull_addFlags ..⟩
  case sdp => exact ⟨_, requireEven_operandFull_pos h1 hok, putFull_subFlags ..⟩

/-! ### Multiple-precision halfwords -/

/-- ChainGL leaves C and V as the addition set them (R178). -/
theorem chainCc_carryFlags (free : Bool) (old : Cc) (a b : Word) (cin : Bool) :
    carryFlags a b cin (chainCc free old (addFlags a b cin)) := by
  rw [carryFlags, chainCc_c, chainCc_v]
  exact addFlags_carryFlags a b cin

/-- ChainGL leaves C and V as the subtraction set them (R178). -/
theorem chainCc_borrowFlags (free : Bool) (old : Cc) (a b : Word) (bin : Bool) :
    borrowFlags a b bin (chainCc free old (subFlags a b bin)) := by
  rw [borrowFlags, chainCc_c, chainCc_v]
  exact subFlags_borrowFlags a b bin

theorem putChain_addFlags (s : State) (len : Word) (r : Nibble) (a b : Word) (cin : Bool) :
    s.putsHalf (putChain len r (addFlags a b cin) s) len r (a + b + if cin then 1 else 0) fun cc =>
      carryFlags a b cin cc ∧ chainFlags s.psw.cc (a + b + if cin then 1 else 0) cc :=
  addFlags_value_carry a b cin ▸ State.putsHalf_drawn
    ⟨chainCc_carryFlags .., chainCc_chainFlags _ _ _ (addFlags_signFlags a b cin)⟩

theorem putChain_subFlags (s : State) (len : Word) (r : Nibble) (a b : Word) (bin : Bool) :
    s.putsHalf (putChain len r (subFlags a b bin) s) len r (a - b - if bin then 1 else 0) fun cc =>
      borrowFlags a b bin cc ∧ chainFlags s.psw.cc (a - b - if bin then 1 else 0) cc :=
  subFlags_value_borrow a b bin ▸ State.putsHalf_drawn
    ⟨chainCc_borrowFlags .., chainCc_chainFlags _ _ _ (subFlags_signFlags a b bin)⟩

/-- Settles O8: the old C is the third term, and the old G and L are those that ChainGL reads. -/
theorem carryHalfword : Obligations.CarryHalfword := by
  intro s r1 cin one
  refine ⟨fun r2 => ⟨?achr, ?schr⟩, fun x2 a2 hok => ⟨?ach, ?sch⟩⟩
  case achr => exact ⟨_, rfl, putChain_addFlags ..⟩
  case schr => exact ⟨_, rfl, putChain_subFlags ..⟩
  case ach => exact ⟨_, show execAch r1 x2 a2 s = _ from State.operandHalf_pos hok, putChain_addFlags ..⟩
  case sch => exact ⟨_, show execSch r1 x2 a2 s = _ from State.operandHalf_pos hok, putChain_subFlags ..⟩

/-! ### Products -/

/-- Settles O9: the product of the whole operands goes to the register group, and no flag is written (R199). -/
theorem multiply : Obligations.Multiply := by
  intro s r1 h1 m
  refine ⟨fun r2 => ⟨?mhr, ?mhur⟩, fun x2 a2 hok => ⟨?mh, ?mhu⟩, fun h12 => ⟨fun r2 h2 => ?mdpr, fun x2 a2 hok => ?mdp⟩⟩
  case mhr | mhur => exact ⟨_, require_pos (evenReg_of_isEven h1), State.putsPair_kept⟩
  case mh | mhu => exact ⟨_, requireEven_operandHalf_pos h1 hok, State.putsPair_kept⟩
  case mdpr => exact ⟨_, require_pos (quadReg_and_of_isEven h1 h12 h2), State.putsQuad_kept⟩
  case mdp => exact ⟨_, requireQuad_operandFull_pos h1 h12 hok, State.putsQuad_kept⟩

/-! ### Quotients -/

/-! A draw spent is no part of what an instruction puts in its registers, nor of an exchange. -/

theorem State.putsPair.drawn {t : State} {r : Nibble} {v : Full} {flags : Cc → Prop} (h : s.putsPair t len r v flags) :
    s.putsPair t.drawn len r v flags :=
  let ⟨hv, hcc, hpsw, hkeeps⟩ := h
  ⟨hv, hcc, hpsw, hkeeps.of_eq rfl rfl rfl⟩

theorem State.putsQuad.drawn {t : State} {r : Nibble} {v : Quad} {flags : Cc → Prop} (h : s.putsQuad t len r v flags) :
    s.putsQuad t.drawn len r v flags :=
  let ⟨hv, hcc, hpsw, hkeeps⟩ := h
  ⟨hv, hcc, hpsw, hkeeps.of_eq rfl rfl rfl⟩

theorem State.swapped.drawn {t : State} {status lc old new : Word} (h : s.swapped t status lc old new) :
    s.swapped t.drawn status lc old new :=
  let ⟨hold, holdLc, hstatus, hlc, hkeeps⟩ := h
  ⟨hold, holdLc, hstatus, hlc, hkeeps.of_eq rfl rfl rfl⟩

theorem divideHalf_fits {d : Word} (h : quotientFits 16 (s.pair r1).toInt d.toInt) :
    s.putsPair (divideHalf len r1 d s) len r1 (BitVec.ofInt 16 ((s.pair r1).toInt.tmod d.toInt) ++
      BitVec.ofInt 16 ((s.pair r1).toInt.tdiv d.toInt)) s.ccKept := by
  rw [divideHalf, divide_fits _ h]
  exact State.putsPair_kept.drawn

theorem divideFull_fits {d : Full} (h : quotientFits 32 (s.quad r1).toInt d.toInt) :
    s.putsQuad (divideFull len r1 d s) len r1 (BitVec.ofInt 32 ((s.quad r1).toInt.tmod d.toInt) ++
      BitVec.ofInt 32 ((s.quad r1).toInt.tdiv d.toInt)) s.ccKept := by
  rw [divideFull, divide_fits _ h]
  exact State.putsQuad_kept.drawn

/-! ### The divide fault -/

/-- The fault, with the draw that the divide has spent: the exchange of R462 where PSW bit 3 is set, else the next
instruction (log 11). -/
theorem divideFault_divideFaults (hm : Memory.wf s.mem = true) (len : Word) :
    s.divideFaults (divideFault len s.drawn) len := by
  refine ⟨fun hen => ?enabled, fun hdis => ?disabled⟩
  case enabled =>
    have hraise : divideFault len s.drawn = (s.exchange 0x0048 0x004C (s.psw.lc + len)).drawn := if_pos hen
    rw [hraise]
    exact (State.swapped_exchange hm 0x0048 0x004C _ (by decide)).drawn
  case disabled =>
    have hnext : divideFault len s.drawn = s.drawn.advance len := if_neg (Bool.eq_false_iff.1 hdis)
    rw [hnext]
    exact ⟨rfl, (State.Keeps.refl s _ _).of_eq rfl rfl rfl⟩

theorem divideHalf_overflows {d : Word} (hm : Memory.wf s.mem = true)
    (h : divideOverflows 16 (s.pair r1).toInt d.toInt) : s.divideFaults (divideHalf len r1 d s) len := by
  rw [divideHalf, divide_overflows _ h]
  exact divideFault_divideFaults hm len

theorem divideFull_overflows {d : Full} (hm : Memory.wf s.mem = true)
    (h : divideOverflows 32 (s.quad r1).toInt d.toInt) : s.divideFaults (divideFull len r1 d s) len := by
  rw [divideFull, divide_overflows _ h]
  exact divideFault_divideFaults hm len

end Sys2Proof.Machine

namespace Sys2Proof.Laws

open Machine

/-! ### The divides, under names that the model's own operations have in the other namespace -/

/-- Settles O10: a quotient that fits under every reading of the fault is stored below its remainder (R200). -/
theorem divide : Obligations.Divide := by
  intro s r1 h1 n half
  refine ⟨fun r2 hq => ?dhr, fun x2 a2 hok hq => ?dh, fun h12 => ⟨fun r2 h2 hq => ?ddpr, fun x2 a2 hok hq => ?ddp⟩⟩
  case dhr => exact ⟨_, require_pos (evenReg_of_isEven h1), divideHalf_fits hq⟩
  case dh => exact ⟨_, requireEven_operandHalf_pos h1 hok, divideHalf_fits hq⟩
  case ddpr => exact ⟨_, require_pos (quadReg_and_of_isEven h1 h12 h2), divideFull_fits hq⟩
  case ddp => exact ⟨_, requireQuad_operandFull_pos h1 h12 hok, divideFull_fits hq⟩

/-- Settles O11: a divide that cannot be done ends in the fault, whatever the reading of the most negative quotient. -/
theorem divideFault : Obligations.DivideFault := by
  intro s r1 hm h1 n
  refine ⟨fun r2 hq => ?dhr, fun x2 a2 hok hq => ?dh, fun h12 => ⟨fun r2 h2 hq => ?ddpr, fun x2 a2 hok hq => ?ddp⟩⟩
  case dhr => exact ⟨_, require_pos (evenReg_of_isEven h1), divideHalf_overflows hm hq⟩
  case dh => exact ⟨_, requireEven_operandHalf_pos h1 hok, divideHalf_overflows hm hq⟩
  case ddpr => exact ⟨_, require_pos (quadReg_and_of_isEven h1 h12 h2), divideFull_overflows hm hq⟩
  case ddp => exact ⟨_, requireQuad_operandFull_pos h1 h12 hok, divideFull_overflows hm hq⟩

end Sys2Proof.Laws
end

section
/-! Logical instructions and compares (42_logical_compare.md R210 to R232, 43_byte.md R246): what the two shared endings
leave, then the instructions, each of which reaches one of them once its operands are checked. -/

namespace Sys2Proof.Machine

variable {s : State} {len : Word} {x2 : Nibble} {a2 : Word}

/-! ### Operands -/

theorem State.operandByte_pos {k : Byte → Out} (h : s.byteOk s.psw.obank (s.ea x2 a2)) :
    s.operandByte x2 a2 k = k (s.byteAt s.psw.obank (s.ea x2 a2)) := State.guardByte_pos h

theorem lowByte_eq_setWidth (w : Word) : lowByte w = w.setWidth 8 :=
  (BitVec.setWidth_eq_extractLsb' (by decide)).symm

/-! ### The shared endings -/

/-- What a logical instruction leaves: the result, G and L its sign, the next instruction (R210). -/
theorem putLogic_putsHalf (s : State) (len : Word) (r : Nibble) (v : Word) :
    s.putsHalf (putLogic len r v s) len r v (signFlags v) := State.putsHalf_drawn (s.loadCc_signFlags v)

/-- What a test or a compare leaves: its Condition Code, the next instruction. -/
theorem putCc_setsCc {cc : Cc} {flags : Cc → Prop} (h : flags cc) : s.setsCc (putCc len cc s) len flags :=
  State.setsCc_drawn h

/-- A logical compare of halfwords or bytes leaves the unsigned order, whatever the free bits (R231, log 37). -/
theorem putCc_compareLogical {w : Nat} (s : State) (len : Word) (v free : Bool) (a b : BitVec w) :
    s.setsCc (putCc len (compareLogical v free a b) s) len (orderFlags a b) :=
  putCc_setsCc (compareLogical_orderFlags v free a b)

/-- A logical compare of fullwords leaves the unsigned order in G and L too (R231). -/
theorem putCc_compareLogicalFull (s : State) (len : Word) (v : Bool) (a b : Full) :
    s.setsCc (putCc len (compareLogicalFull v a b) s) len (fullOrderFlags a b) :=
  putCc_setsCc (compareLogicalFull_fullOrderFlags v a b)

/-- An algebraic compare leaves the signed order (R232, log 34). -/
theorem putCc_signedOrder {w : Nat} (s : State) (len : Word) (a b : BitVec w) :
    s.setsCc (putCc len (s.signedOrder a b) s) len (signedOrderFlags a b) :=
  putCc_setsCc (compareSigned_signedOrderFlags _ _ a b)

/-! ### The logical instructions and THI -/

/-- Settles O12: the bitwise result goes to R1 in every form but THI, which only tests it. -/
theorem logicalHalfword : Obligations.LogicalHalfword := by
  intro s r1 x
  refine ⟨fun r2 => ⟨?nhr, ?ohr, ?xhr⟩, fun x2 i2 => ⟨?nhi, ?ohi, ?xhi, ?thi⟩, fun x2 a2 hok => ⟨?nh, ?oh, ?xh⟩⟩
  case nhr | ohr | xhr | nhi | ohi | xhi => exact ⟨_, rfl, putLogic_putsHalf ..⟩
  case thi => exact ⟨_, rfl, putCc_setsCc (s.loadCc_signFlags _)⟩
  case nh => exact ⟨_, show execNh r1 x2 a2 s = _ from State.operandHalf_pos hok, putLogic_putsHalf ..⟩
  case oh => exact ⟨_, show execOh r1 x2 a2 s = _ from State.operandHalf_pos hok, putLogic_putsHalf ..⟩
  case xh => exact ⟨_, show execXh r1 x2 a2 s = _ from State.operandHalf_pos hok, putLogic_putsHalf ..⟩

end Sys2Proof.Machine

namespace Sys2Proof.Laws

open Machine

/-! ### The compares, the logical one under a name that the model's own operation has in the other namespace -/

/-- Settles O13: the operands are checked, and what is left is the unsigned order; CLB compares R1's low byte. -/
theorem compareLogical : Obligations.CompareLogical := by
  intro s r1
  refine ⟨fun r2 => ?clhr, fun x2 i2 => ?clhi, fun x2 a2 hok => ?clh, fun x2 a2 hok => ?clb,
    fun h1 => ⟨fun r2 h2 => ?cldpr, fun x2 a2 hok => ?cldp⟩⟩
  case clhr | clhi => exact ⟨_, rfl, putCc_compareLogical ..⟩
  case clh => exact ⟨_, show execClh r1 x2 a2 s = _ from State.operandHalf_pos hok, putCc_compareLogical ..⟩
  case clb =>
    rw [← lowByte_eq_setWidth]
    exact ⟨_, show execClb r1 x2 a2 s = _ from State.operandByte_pos hok, putCc_compareLogical ..⟩
  case cldpr => exact ⟨_, require_pos (evenReg_and_of_isEven h1 h2), putCc_compareLogicalFull ..⟩
  case cldp => exact ⟨_, requireEven_operandFull_pos h1 hok, putCc_compareLogicalFull ..⟩

/-- Settles O14: the operands are checked, and what is left is the signed order. -/
theorem compareAlgebraic : Obligations.CompareAlgebraic := by
  intro s r1
  refine ⟨fun r2 => ?chr, fun x2 i2 => ?chi, fun x2 a2 hok => ?ch,
    fun h1 => ⟨fun r2 h2 => ?cdpr, fun x2 a2 hok => ?cdp⟩⟩
  case chr | chi => exact ⟨_, rfl, putCc_signedOrder ..⟩
  case ch => exact ⟨_, show execCh r1 x2 a2 s = _ from State.operandHalf_pos hok, putCc_signedOrder ..⟩
  case cdpr => exact ⟨_, require_pos (evenReg_and_of_isEven h1 h2), putCc_signedOrder ..⟩
  case cdp => exact ⟨_, requireEven_operandFull_pos h1 hok, putCc_signedOrder ..⟩

end Sys2Proof.Laws
end

section
/-! Byte handling (43_byte.md R240 to R245): the bytes of a halfword in the terms of the claim, what the shared ending
and a byte store leave, then the five instructions. -/

namespace Sys2Proof.Machine

variable {s : State}

/-! ### The bytes of a halfword -/

theorem lowByte_ushiftRight (w : Word) : lowByte (w >>> 8) = highByte w :=
  BitVec.eq_of_toNat_eq (by simp [lowByte, highByte, BitVec.extractLsb'])

/-- The right byte padded with zeros is the halfword under the mask 00FF (R241). -/
theorem byteWord_lowByte (w : Word) : byteWord (lowByte w) = w &&& 0x00FF := by
  rw [byteWord, lowByte_eq_setWidth, BitVec.setWidth_eq_append (by decide)]
  exact (BitVec.and_setWidth_allOnes 8 8 w).symm

/-! ### What a load and a store of a byte leave -/

/-- What a byte load, STBR and EXBR leave: the halfword, the Condition Code kept, the next instruction (R240). -/
theorem putByte_putsHalf (s : State) (len : Word) (r : Nibble) (v : Word) :
    s.putsHalf (putByte len r v s) len r v s.ccKept := State.putsHalf_kept

/-- A store of one byte changes that byte alone. -/
theorem State.Keeps.storeByte {rs : List Nibble} (b : Bank) (a : Word) (v : Byte) :
    s.Keeps (s.setByte b a v) rs (span b a 1) := State.Keeps.setByte b a v (span_self b a Nat.one_pos)

theorem State.writeByte_pos {b : Bank} {a : Word} (v : Byte) (h : s.byteOk b a) :
    s.writeByte b a v = .next (s.setByte b a v) := State.guardByte_pos h

theorem execStb_pos {x2 : Nibble} {a2 : Word} (r1 : Nibble) (h : s.byteOk s.psw.obank (s.ea x2 a2)) :
    execStb r1 x2 a2 s = .next ((s.setByte s.psw.obank (s.ea x2 a2) (lowByte (s.reg r1))).advance len4) := by
  rw [execStb, State.writeByte_pos _ h]; rfl

/-! ### The instructions -/

/-- Settles O15: the register forms and LB end in `putByte`; STB's byte reads back in the canonical form. -/
theorem byteHandling : Obligations.ByteHandling := by
  intro s r1 hm
  simp only [← lowByte_eq_setWidth, lowByte_ushiftRight, ← byteWord_lowByte]
  refine ⟨fun r2 => ⟨?lbr, ?stbr, ?exbr⟩, fun x2 a2 hok => ⟨?lb, ?stb⟩⟩
  case lbr | stbr | exbr => exact ⟨_, rfl, putByte_putsHalf ..⟩
  case lb => exact ⟨_, show execLb r1 x2 a2 s = _ from State.operandByte_pos hok, putByte_putsHalf ..⟩
  case stb =>
    exact ⟨_, show execStb r1 x2 a2 s = _ from execStb_pos r1 hok, State.byteAt_setByte_self hm .., rfl,
      (State.Keeps.storeByte ..).of_eq rfl rfl rfl⟩

end Sys2Proof.Machine
end

section
/-! Shift and rotate (44_shift_rotate.md R250 to R268): what each shift answers for a count below its width, what the
shared endings leave of it, then the sixteen instructions, each of which reaches one of these endings. -/

namespace Sys2Proof.Machine

variable {s : State} {r1 : Nibble}

/-! ### The shifts -/

/-- A shift by `n` answers the value `r`, and the bit `last` as its carry unless the count is zero (R250, R252). -/
structure Shifted.Is {w : Nat} (f : Shifted w) (n : Nat) (r : BitVec w) (last : Bool) : Prop where
  value : f.value = r
  carry : n ≠ 0 → f.carry = last

section Values

variable {w n : Nat} (free : Bool) (v : BitVec w)

theorem shiftLeftLogical_is :
    (shiftLeftLogical free v n).Is n (BitVec.ofNat w (v.toNat * 2 ^ n)) (v.getMsbD (n - 1)) :=
  ⟨shiftLeftLogical_value free v n, fun hn => if_neg hn⟩

theorem shiftRightLogical_is (h : n < w) :
    (shiftRightLogical free v n).Is n (BitVec.ofNat w (v.toNat / 2 ^ n)) (v.getLsbD (n - 1)) :=
  ⟨shiftRightLogical_value free v n, fun hn => (if_neg hn).trans (getMsbD_sub v hn h)⟩

theorem shiftLeftArithmetic_is (h : n < w) : (shiftLeftArithmetic free v n).Is n
    (BitVec.ofNat w (v.toNat * 2 ^ n % 2 ^ (w - 1) + if v.msb then 2 ^ (w - 1) else 0)) (v.getMsbD n) :=
  ⟨shiftLeftArithmetic_value (Nat.zero_lt_of_lt h) free v n, fun hn => if_neg hn⟩

theorem shiftRightArithmetic_is (h : n < w) :
    (shiftRightArithmetic free v n).Is n (BitVec.ofInt w (v.toInt / 2 ^ n)) (v.getLsbD (n - 1)) :=
  ⟨shiftRightArithmetic_value free v n, fun hn => (if_neg hn).trans (getMsbD_sub v hn h)⟩

end Values

/-! The counts of R251 stay below the widths that they shift. -/

theorem count4_lt (a : Word) : count4 a < 16 := Nat.mod_lt _ (by decide)

theorem count5_lt (a : Word) : count5 a < 32 := Nat.mod_lt _ (by decide)

theorem count6_lt (a : Word) : count6 a < 64 := Nat.mod_lt _ (by decide)

/-! ### The shared endings -/

/-- A shift instruction leaves the value, ShiftCC of it and of the last bit shifted out, and the next instruction: a
halfword in R1, a fullword in the pair or a doubleword in the quad (R250). -/
theorem putShift_putsHalf {len : Word} {f : Shifted 16} {n : Nat} {r : Word} {last : Bool} (h : f.Is n r last) :
    s.putsHalf (putShift len r1 f s) len r1 r (shiftFlags r n last) := by
  obtain ⟨rfl, hcarry⟩ := h
  exact State.putsHalf_drawn (shiftCc_shiftFlags _ _ _ _ hcarry)

theorem putShiftFull_putsPair {f : Shifted 32} {n : Nat} {r : Full} {last : Bool} (h : f.Is n r last) :
    s.putsPair (putShiftFull r1 f s) len4 r1 r (shiftFlags r n last) := by
  obtain ⟨rfl, hcarry⟩ := h
  exact State.putsPair_drawn (shiftCc_shiftFlags _ _ _ _ hcarry)

theorem putShiftQuad_putsQuad {f : Shifted 64} {n : Nat} {r : Quad} {last : Bool} (h : f.Is n r last) :
    s.putsQuad (putShiftQuad r1 f s) len4 r1 r (shiftFlags r n last) := by
  obtain ⟨rfl, hcarry⟩ := h
  exact State.putsQuad_drawn (shiftCc_shiftFlags _ _ _ _ hcarry)

/-- A rotate leaves the fullword in the pair, C and V reset whatever the count, G and L its sign (R261). -/
theorem putRotate_putsPair (s : State) (r1 : Nibble) (r : Full) :
    s.putsPair (putRotate r1 r s) len4 r1 r fun cc => cc.c = false ∧ cc.v = false ∧ signFlags r cc :=
  State.putsPair_set ⟨rfl, rfl, signFlags_of_msb r false false⟩

/-! ### The instructions -/

/-- Settles O16: the register restriction is met, and the shared ending stores the logical shift by the count. -/
theorem shiftLogical : Obligations.ShiftLogical := by
  intro s r1 left right
  refine ⟨fun n => ⟨?slls, ?srls⟩, fun x2 i2 => ⟨?slhl, ?srhl⟩, fun h1 x2 i2 => ⟨?sll, ?srl⟩,
    fun h1 h12 x2 i2 => ⟨?slql, ?srql⟩⟩
  case slls | slhl => exact ⟨_, rfl, putShift_putsHalf (shiftLeftLogical_is ..)⟩
  case srls => exact ⟨_, rfl, putShift_putsHalf (shiftRightLogical_is _ _ n.isLt)⟩
  case srhl => exact ⟨_, rfl, putShift_putsHalf (shiftRightLogical_is _ _ (count4_lt _))⟩
  case sll => exact ⟨_, require_pos (evenReg_of_isEven h1), putShiftFull_putsPair (shiftLeftLogical_is ..)⟩
  case srl =>
    exact ⟨_, require_pos (evenReg_of_isEven h1), putShiftFull_putsPair (shiftRightLogical_is _ _ (count5_lt _))⟩
  case slql => exact ⟨_, require_pos (quadReg_of_isEven h1 h12), putShiftQuad_putsQuad (shiftLeftLogical_is ..)⟩
  case srql =>
    exact ⟨_, require_pos (quadReg_of_isEven h1 h12), putShiftQuad_putsQuad (shiftRightLogical_is _ _ (count6_lt _))⟩

/-- Settles O17: the register restriction is met, and the shared ending stores the arithmetic shift by the count. -/
theorem shiftArithmetic : Obligations.ShiftArithmetic := by
  intro s r1 left right
  refine ⟨fun x2 i2 => ⟨?slha, ?srha⟩, fun h1 x2 i2 => ⟨?sla, ?sra⟩, fun h1 h12 x2 i2 => ⟨?slqa, ?srqa⟩⟩
  case slha => exact ⟨_, rfl, putShift_putsHalf (shiftLeftArithmetic_is _ _ (count4_lt _))⟩
  case srha => exact ⟨_, rfl, putShift_putsHalf (shiftRightArithmetic_is _ _ (count4_lt _))⟩
  case sla =>
    exact ⟨_, require_pos (evenReg_of_isEven h1), putShiftFull_putsPair (shiftLeftArithmetic_is _ _ (count5_lt _))⟩
  case sra =>
    exact ⟨_, require_pos (evenReg_of_isEven h1), putShiftFull_putsPair (shiftRightArithmetic_is _ _ (count5_lt _))⟩
  case slqa =>
    exact ⟨_, require_pos (quadReg_of_isEven h1 h12), putShiftQuad_putsQuad (shiftLeftArithmetic_is _ _ (count6_lt _))⟩
  case srqa =>
    exact ⟨_, require_pos (quadReg_of_isEven h1 h12),
      putShiftQuad_putsQuad (shiftRightArithmetic_is _ _ (count6_lt _))⟩

/-- Settles O18: below the width of the pair a rotate is the two shifts of the statement joined. -/
theorem rotate : Obligations.Rotate := by
  intro s r1 x2 i2 h1 n v flags
  have hn : n < 32 := count5_lt (s.ea x2 i2)
  have hleft : v.rotateLeft n = v <<< n ||| v >>> (32 - n) := BitVec.rotateLeft_eq_rotateLeftAux_of_lt hn
  have hright : v.rotateRight n = v >>> n ||| v <<< (32 - n) := BitVec.rotateRight_eq_rotateRightAux_of_lt hn
  rw [← hleft, ← hright]
  exact ⟨⟨_, require_pos (evenReg_of_isEven h1), putRotate_putsPair ..⟩,
    ⟨_, require_pos (evenReg_of_isEven h1), putRotate_putsPair ..⟩⟩

end Sys2Proof.Machine
end

section
/-! Branches (45_branch.md R280 to R295): what the mask test says, the rules of a Location Counter set and of a branch
taken or not, then the twelve instructions, each of which ends in one of these. -/

namespace Sys2Proof.Machine

variable {s t : State} {rs : List Nibble} {m : Bank → Word → Prop}

/-! ### The mask and the index -/

/-- The mask test of R280, bit by bit, is the one of the two fields as numbers. -/
theorem Cc.meets_iff (cc : Cc) (m1 : Nibble) : cc.meets m1 = true ↔ cc.bits &&& m1 ≠ 0 := by
  obtain ⟨c, v, g, l⟩ := cc
  revert c v g l m1
  decide

theorem Cc.meets_eq_false_iff (cc : Cc) (m1 : Nibble) : cc.meets m1 = false ↔ ¬ cc.bits &&& m1 ≠ 0 := by
  rw [← cc.meets_iff, Bool.not_eq_true]

/-- Between an index and a limit of like signs the comparison is the unsigned one, whatever log 32 selects. -/
theorem indexGreater_iff {v lim : Word} (h : v.msb = lim.msb) : indexGreater v lim = true ↔ lim.toNat < v.toNat := by
  rw [indexGreater, if_pos h, decide_eq_true_iff]

/-! ### The Location Counter -/

theorem State.lcOnly_setLc (h : t.psw = s.psw) (a : Word) : s.lcOnly (t.setLc a) a := by
  rw [State.lcOnly, State.setLc_psw, h]

theorem State.Keeps.setLc (h : s.Keeps t rs m) (a : Word) : s.Keeps (t.setLc a) rs m := h.of_eq rfl rfl rfl

/-- A register is written, then control passes to an address: how BALR and BAL end (R292, R293). -/
theorem State.setReg_setLc (s : State) (r : Nibble) (v a : Word) :
    ((s.setReg r v).setLc a).reg r = v ∧ s.lcOnly ((s.setReg r v).setLc a) a ∧
      s.Keeps ((s.setReg r v).setLc a) [r] nowhere :=
  ⟨s.reg_setReg_self r v, State.lcOnly_setLc rfl a, (State.Keeps.setReg r v (List.mem_singleton.2 rfl)).setLc a⟩

/-! ### Branches taken and not taken -/

theorem branchIf_taken {taken : Bool} (h : taken = true) (target len : Word) (s : State) :
    branchIf taken target len s = s.setLc target := if_pos h

theorem branchIf_passed {taken : Bool} (h : taken = false) (target len : Word) (s : State) :
    branchIf taken target len s = s.setLc (s.psw.lc + len) := if_neg (Bool.eq_false_iff.1 h)

/-- A register is written, then a branch: BXH and BXLE, with the next instruction that of the state before the write. -/
theorem State.setReg_branchIf (s : State) (r : Nibble) (v : Word) {taken : Bool} {target len lc : Word}
    (h : lc = if taken then target else s.psw.lc + len) :
    (branchIf taken target len (s.setReg r v)).reg r = v ∧ s.lcOnly (branchIf taken target len (s.setReg r v)) lc ∧
      s.Keeps (branchIf taken target len (s.setReg r v)) [r] nowhere := by
  subst h
  cases taken with
  | true => exact s.setReg_setLc r v target
  | false => exact s.setReg_setLc r v (s.psw.lc + len)

/-- From `s` the instruction `i` only moves the Location Counter, to `lc`: what O19 says of each branch. -/
def State.goesTo (s : State) (i : Instr) (lc : Word) : Prop :=
  ∃ t, exec i s = .next t ∧ s.lcOnly t lc ∧ s.Keeps t [] nowhere

theorem State.goesTo_setLc {i : Instr} {lc : Word} (h : exec i s = .next (s.setLc lc)) : s.goesTo i lc :=
  ⟨_, h, State.lcOnly_setLc rfl lc, (State.Keeps.refl s [] nowhere).setLc lc⟩

/-- An instruction that ends in a branch taken goes to the target. -/
theorem State.goesTo_target {i : Instr} {taken : Bool} {target len : Word}
    (hi : exec i s = .next (branchIf taken target len s)) (h : taken = true) : s.goesTo i target :=
  State.goesTo_setLc (hi.trans (congrArg _ (branchIf_taken h target len s)))

/-- An instruction that ends in a branch not taken goes to the next instruction. -/
theorem State.goesTo_next {i : Instr} {taken : Bool} {target len : Word}
    (hi : exec i s = .next (branchIf taken target len s)) (h : taken = false) : s.goesTo i (s.psw.lc + len) :=
  State.goesTo_setLc (hi.trans (congrArg _ (branchIf_passed h target len s)))

/-! ### The instructions -/

/-- Settles O19: the branches on true and on false are taken in opposite cases of the mask test. -/
theorem branchOnCondition : Obligations.BranchOnCondition := by
  intro s m1 met goes pc
  refine ⟨fun hmet => ?met, fun hmet => ?notMet⟩
  case met =>
    have onTrue : s.psw.cc.meets m1 = true := (Cc.meets_iff ..).2 hmet
    have onFalse : (!s.psw.cc.meets m1) = false := by rw [onTrue, Bool.not_true]
    exact ⟨fun n => ⟨State.goesTo_target rfl onTrue, State.goesTo_target rfl onTrue,
        State.goesTo_next rfl onFalse, State.goesTo_next rfl onFalse⟩,
      fun r2 => ⟨State.goesTo_target rfl onTrue, State.goesTo_next rfl onFalse⟩,
      fun x2 a2 => ⟨State.goesTo_target rfl onTrue, State.goesTo_next rfl onFalse⟩⟩
  case notMet =>
    have onTrue : s.psw.cc.meets m1 = false := (Cc.meets_eq_false_iff ..).2 hmet
    have onFalse : (!s.psw.cc.meets m1) = true := by rw [onTrue, Bool.not_false]
    exact ⟨fun n => ⟨State.goesTo_next rfl onTrue, State.goesTo_next rfl onTrue,
        State.goesTo_target rfl onFalse, State.goesTo_target rfl onFalse⟩,
      fun r2 => ⟨State.goesTo_next rfl onTrue, State.goesTo_target rfl onFalse⟩,
      fun x2 a2 => ⟨State.goesTo_next rfl onTrue, State.goesTo_target rfl onFalse⟩⟩

/-- Settles O20: the comparison result is the model's own; BXH branches on it, BXLE on its opposite, after the same
write of R1. -/
theorem branchOnIndex : Obligations.BranchOnIndex := by
  intro s r1 x2 i2 h13 v lim
  have hr : tripleReg r1 = true := (tripleReg_iff r1).2 h13
  have opposite : ∀ high : Bool,
      (if high then s.psw.lc + len4 else s.ea x2 i2) = if !high then s.ea x2 i2 else s.psw.lc + len4
    | true => rfl
    | false => rfl
  exact ⟨indexGreater v lim, indexGreater_iff, ⟨_, require_pos hr, s.setReg_branchIf r1 v rfl⟩,
    ⟨_, require_pos hr, s.setReg_branchIf r1 v (opposite _)⟩⟩

/-- Settles O21: the target is an operand of the state before R1 is written. -/
theorem branchAndLink : Obligations.BranchAndLink := fun s r1 =>
  ⟨fun r2 => ⟨_, rfl, s.setReg_setLc r1 (s.nextLc len2) (s.reg r2)⟩,
    fun x2 a2 => ⟨_, rfl, s.setReg_setLc r1 (s.nextLc len4) (s.ea x2 a2)⟩⟩

end Sys2Proof.Machine
end

section
/-! Floating-point words and outcomes (46_floating_point.md R300 to R303, R318): a magnitude with a sign, the fields of
a word, what a normalised word is worth, and what the end of an instruction makes of an outcome. -/

namespace Sys2Proof.Machine

/-! ### A magnitude with a sign -/

section Signed

variable (s s' : Bool) (m n : Nat)

theorem natAbs_signed : (signed s m).natAbs = m := by
  cases s <;> simp [signed]

theorem signed_eq_mul : signed s m = signed s 1 * m := by
  cases s <;> simp [signed]

theorem signed_mul_signed : signed s m * signed s' n = signed (s ^^ s') (m * n) := by
  cases s <;> cases s' <;> simp [signed]

theorem signed_mul_natCast : signed s m * (n : Int) = signed s (m * n) := by
  rw [signed_eq_mul, signed_eq_mul s (m * n), Nat.cast_mul, mul_assoc]

theorem signed_mul_pow (k : Nat) : signed s m * 16 ^ k = signed s (m * 16 ^ k) := by
  rw [← signed_mul_natCast, Nat.cast_pow, Nat.cast_ofNat]

theorem signed_add : signed s (m + n) = signed s m + signed s n := by
  rw [signed_eq_mul, signed_eq_mul s m, signed_eq_mul s n, Nat.cast_add, mul_add]

theorem natAbs_signed_sub : (signed s m - signed s n).natAbs = ((m : Int) - n).natAbs := by
  rw [signed_eq_mul, signed_eq_mul s n, ← mul_sub, Int.natAbs_mul, natAbs_signed, one_mul]

theorem signed_eq_zero_iff : signed s m = 0 ↔ m = 0 := by
  rw [← Int.natAbs_eq_zero, natAbs_signed]

theorem signed_pos_iff : 0 < signed s m ↔ s = false ∧ 0 < m := by
  cases s <;> simp [signed]

theorem signed_neg_iff : signed s m < 0 ↔ s = true ∧ 0 < m := by
  cases s <;> simp [signed]

theorem sign_signed_of_pos {m : Nat} (h : 0 < m) : (signed s m).sign = signed s 1 := by
  have hm : (m : Int).sign = 1 := Int.sign_eq_one_of_pos (by omega)
  cases s <;> simp [signed, hm]

/-- A number is its magnitude with its sign. -/
theorem signed_natAbs (t : Int) : signed (decide (t < 0)) t.natAbs = t := by
  by_cases h : t < 0
  · rw [signed, if_pos (decide_eq_true h), Int.ofNat_natAbs_of_nonpos h.le, neg_neg]
  · rw [signed, if_neg (by simpa using h), Int.natAbs_of_nonneg (not_lt.1 h)]

end Signed

/-! ### The fields of a word -/

theorem fpExp_lt (w : Full) : fpExp w < 128 := (w.extractLsb' 24 7).isLt

theorem fpExp_zero : fpExp 0 = 0 := rfl

theorem fpFrac_lt (w : Full) : fpFrac w < 2 ^ 24 := (w.extractLsb' 0 24).isLt

section Fields

variable {s : Bool} {e m : Nat}

theorem fpSign_fpWord : fpSign (fpWord s e m) = s := by
  rw [fpSign, fpWord, BitVec.msb_append, if_neg (by decide), BitVec.msb_append, if_neg (by decide)]
  simp

theorem fpExp_fpWord (h : e < 128) : fpExp (fpWord s e m) = e := by
  rw [fpExp, fpWord, BitVec.extractLsb'_append_eq_of_le (le_refl 24), BitVec.extractLsb'_append_eq_right,
    BitVec.toNat_ofNat, Nat.mod_eq_of_lt h]

theorem fpFrac_fpWord (h : m < 2 ^ 24) : fpFrac (fpWord s e m) = m := by
  rw [fpFrac, fpWord, BitVec.extractLsb'_append_eq_right, BitVec.toNat_ofNat, Nat.mod_eq_of_lt h]

/-- What a word is worth whose fields hold the exponent and the fraction given. -/
theorem fpScaled_fpWord (he : e < 128) (hm : m < 2 ^ 24) : fpScaled (fpWord s e m) = signed s (m * 16 ^ e) := by
  rw [fpScaled, fpSign_fpWord, fpExp_fpWord he, fpFrac_fpWord hm]

theorem normalised_fpWord (hm : m < 2 ^ 24) (h : 2 ^ 20 ≤ m) : normalised (fpWord s e m) = true := by
  rw [normalised, fpFrac_fpWord hm, decide_eq_true h, Bool.or_true]

end Fields

/-! ### Normalised words -/

section Normalised

variable {w : Full}

theorem normalised_iff : normalised w = true ↔ w = 0 ∨ 2 ^ 20 ≤ fpFrac w := by
  rw [normalised, Bool.or_eq_true, beq_iff_eq, decide_eq_true_iff, trueZero]

theorem natAbs_fpScaled (w : Full) : (fpScaled w).natAbs = fpFrac w * 16 ^ fpExp w := natAbs_signed ..

theorem fpScaled_eq_zero_iff_fpFrac : fpScaled w = 0 ↔ fpFrac w = 0 := by
  rw [fpScaled, signed_eq_zero_iff, Nat.mul_eq_zero, or_iff_left (by positivity)]

/-- The leading digit of a normalised word other than the true zero is not zero (R300). -/
theorem le_fpFrac_of_normalised (h : normalised w = true) (h0 : w ≠ 0) : 2 ^ 20 ≤ fpFrac w :=
  (normalised_iff.1 h).resolve_left h0

/-- Of the normalised words the true zero alone is worth zero (R300). -/
theorem fpScaled_eq_zero_iff (h : normalised w = true) : fpScaled w = 0 ↔ w = 0 := by
  rw [fpScaled_eq_zero_iff_fpFrac]
  refine ⟨fun hf => ?_, fun hw => hw ▸ rfl⟩
  by_contra hw
  have := le_fpFrac_of_normalised h hw
  omega

end Normalised

/-! ### The Condition Code of a value -/

theorem pos_iff_of_sign_eq {x y : Int} (h : x.sign = y.sign) : 0 < x ↔ 0 < y := by
  rw [← Int.sign_eq_one_iff_pos, h, Int.sign_eq_one_iff_pos]

theorem neg_iff_of_sign_eq {x y : Int} (h : x.sign = y.sign) : x < 0 ↔ y < 0 := by
  rw [← Int.sign_eq_neg_one_iff_neg, h, Int.sign_eq_neg_one_iff_neg]

/-- G and L depend on no more of a value than its sign. -/
theorem floatFlags_congr {x y : Int} {cc : Cc} (h : x.sign = y.sign) (hx : floatFlags x cc) : floatFlags y cc := by
  obtain ⟨hv, hg, hl⟩ := hx
  exact ⟨hv, hg.trans (pos_iff_of_sign_eq h), hl.trans (neg_iff_of_sign_eq h)⟩

/-- SignCC of a normalised word is the sign of its value (R318). -/
theorem fpOrdinary_floatFlags (c : Bool) {w : Full} (h : normalised w = true) :
    floatFlags (fpScaled w) (fpOrdinary c w).cc := by
  by_cases hw : w = 0
  · subst hw
    cases c <;> exact ⟨rfl, by decide, by decide⟩
  · have hpos : 0 < fpFrac w * 16 ^ fpExp w := by
      have := le_fpFrac_of_normalised h hw
      positivity
    have hne : (w == trueZero) = false := beq_false_of_ne hw
    refine ⟨rfl, ?_, ?_⟩
    · rw [fpScaled, signed_pos_iff, and_iff_left hpos]
      simp [fpOrdinary, hne]
    · rw [fpScaled, signed_neg_iff, and_iff_left hpos]
      simp [fpOrdinary, hne]

/-! ### Outcomes -/

/-- The outcome is an ordinary result: a word of which `p` holds and a Condition Code of which `flags` holds. -/
def FpOutcome.gives (o : FpOutcome) (p : Full → Prop) (flags : Cc → Prop) : Prop :=
  ∃ w, o.store = some w ∧ o.fault = false ∧ p w ∧ flags o.cc

/-- The outcome is a fault that writes the word `w` and a Condition Code of which `flags` holds (R303). -/
def FpOutcome.faultsWith (o : FpOutcome) (w : Full) (flags : Cc → Prop) : Prop :=
  o.store = some w ∧ o.fault = true ∧ flags o.cc

section Outcomes

variable {s : State} {len : Word} {r : Nibble} {o : FpOutcome} {w : Full} {p : Full → Prop} {flags : Cc → Prop}

theorem FpOutcome.gives.putsFloat (h : o.gives p flags) (hm : Memory.wf s.mem = true) :
    s.putsFloat (finishFloat len r o s) len r p flags :=
  let ⟨_, hstore, hfault, hp, hcc⟩ := h
  State.putsFloat_finish hm hstore hfault hp hcc

theorem FpOutcome.faultsWith.floatFaults (h : o.faultsWith w flags) (hm : Memory.wf s.mem = true) :
    s.floatFaults (finishFloat len r o s) len r w flags :=
  let ⟨hstore, hfault, hcc⟩ := h
  State.floatFaults_finish hm hstore hfault hcc

/-- An ordinary result that is normalised sets the flags of any value of its sign (R318). -/
theorem fpOrdinary_gives {c : Bool} {x : Int} (hn : normalised w = true) (hs : (fpScaled w).sign = x.sign) (hp : p w) :
    (fpOrdinary c w).gives p (floatFlags x) :=
  ⟨w, rfl, rfl, hp, floatFlags_congr hs (fpOrdinary_floatFlags c hn)⟩

theorem fpOrdinary_trueZero_gives {c : Bool} (hp : p 0) : (fpOrdinary c trueZero).gives p (floatFlags 0) :=
  fpOrdinary_gives (by decide) (by decide) hp

theorem fpUnderflow_faultsWith (c : Bool) : (fpUnderflow c).faultsWith 0 underflowFlags := ⟨rfl, rfl, rfl, rfl, rfl⟩

theorem FpOutcome.gives.mono {p' : Full → Prop} {flags' : Cc → Prop} (h : o.gives p flags) (hp : ∀ w, p w → p' w)
    (hf : ∀ cc, flags cc → flags' cc) : o.gives p' flags' :=
  let ⟨w, hstore, hfault, hw, hcc⟩ := h
  ⟨w, hstore, hfault, hp w hw, hf _ hcc⟩

/-- With PSW bit 5 reset every outcome ends in the next instruction, one floating-point register written at most
(R303). -/
theorem finishFloat_completes (s : State) (len : Word) (r : Nibble) (o : FpOutcome) (h : s.psw.fpfEn = false) :
    s.ccAndLc (finishFloat len r o s) (s.psw.lc + len) ∧
      s.Keeps (finishFloat len r o s) [] (span 0 (2 * r.setWidth 16) 4) := by
  rw [finishFloat, h, Bool.and_false, if_neg Bool.false_ne_true]
  cases o.store with
  | none => exact ⟨rfl, (State.Keeps.refl s _ _).of_eq rfl rfl rfl⟩
  | some w =>
    rw [← fpAddr_eq]
    exact ⟨rfl, (State.Keeps.storeFull (s := s) 0 (fpAddr r) w).of_eq rfl rfl rfl⟩

end Outcomes

/-! ### Normalisation -/

/-- Norm shifts left by the least number of digits that leaves the leading one other than zero (R302). -/
theorem fpShift_eq (k : Nat) (e : Int) {m : Nat} (hm : m < 2 ^ 24) (h : 2 ^ 20 ≤ m * 16 ^ k) :
    ∃ j : Nat, fpShift k e m = (e - j, m * 16 ^ j) ∧ 2 ^ 20 ≤ m * 16 ^ j ∧ m * 16 ^ j < 2 ^ 24 := by
  induction k generalizing e m with
  | zero => exact ⟨0, by simp [fpShift], by simpa using h, by simpa using hm⟩
  | succ k ih =>
    rw [fpShift]
    split
    case isTrue hlt =>
      obtain ⟨j, hj, hrange⟩ := ih (e - 1) (m := m * 16) (by omega) (by rwa [mul_assoc, ← pow_succ'])
      rw [mul_assoc, ← pow_succ'] at hj hrange
      exact ⟨j + 1, by rw [hj]; simp; omega, hrange⟩
    case isFalse hge => exact ⟨0, by simp, by simpa using hge, by simpa using hm⟩

section Norm

variable {c s : Bool} {e m : Nat}

/-- Norm of a fraction other than zero: the shift `j` is one that the exponent allows exactly where the value is no
smaller than the least normalised one (R302). -/
theorem fpNorm_cases (c s : Bool) (e : Nat) (hm : m < 2 ^ 24) (h0 : m ≠ 0) :
    (m * 16 ^ e < 2 ^ 20 ∧ fpNorm c s e m = fpUnderflow c) ∨
      ∃ j : Nat, j ≤ e ∧ 2 ^ 20 ≤ m * 16 ^ j ∧ m * 16 ^ j < 2 ^ 24 ∧
        fpNorm c s e m = fpOrdinary c (fpWord s (e - j) (m * 16 ^ j)) := by
  obtain ⟨j, hj, hlo, hhi⟩ := fpShift_eq 5 e hm (by omega)
  rw [fpNorm, if_neg h0, hj]
  by_cases hje : j ≤ e
  · exact .inr ⟨j, hje, hlo, hhi, by dsimp only; rw [if_neg (by omega), show ((e : Int) - j).toNat = e - j by omega]⟩
  · have hstep : m * 16 ^ e * 16 ≤ m * 16 ^ j := by
      rw [mul_assoc, ← pow_succ]
      exact Nat.mul_le_mul_left m (Nat.pow_le_pow_right (by decide) (by omega))
    exact .inl ⟨by omega, if_pos (by dsimp only; omega)⟩

/-- Norm keeps a value that is zero or no smaller than the least normalised one (R302). -/
theorem fpNorm_gives (c s : Bool) (he : e < 128) (hm : m < 2 ^ 24) (h : ¬ tooSmall (signed s (m * 16 ^ e))) :
    (fpNorm c s e m).gives (wordOf (signed s (m * 16 ^ e))) (floatFlags (signed s (m * 16 ^ e))) := by
  by_cases h0 : m = 0
  · subst h0
    have hzero : signed s (0 * 16 ^ e) = 0 := by rw [signed_eq_zero_iff, zero_mul]
    rw [fpNorm, if_pos rfl, hzero]
    exact fpOrdinary_trueZero_gives ⟨rfl, rfl⟩
  · obtain ⟨hlt, -⟩ | ⟨j, hje, hlo, hhi, heq⟩ := fpNorm_cases c s e hm h0
    · refine absurd ⟨?_, by rwa [natAbs_signed]⟩ h
      rw [Ne, signed_eq_zero_iff]
      positivity
    · have hvalue : fpScaled (fpWord s (e - j) (m * 16 ^ j)) = signed s (m * 16 ^ e) := by
        rw [fpScaled_fpWord (by omega) hhi, mul_assoc, ← pow_add, Nat.add_sub_cancel' hje]
      have hnorm := normalised_fpWord (s := s) (e := e - j) hhi hlo
      rw [heq]
      exact fpOrdinary_gives hnorm (by rw [hvalue]) ⟨hnorm, hvalue⟩

/-- Norm of a value below the least normalised one is the underflow (R302, R303). -/
theorem fpNorm_faultsWith (c : Bool) (hm : m < 2 ^ 24) (h : tooSmall (signed s (m * 16 ^ e))) :
    (fpNorm c s e m).faultsWith 0 underflowFlags := by
  obtain ⟨hne, hsmall⟩ := h
  rw [natAbs_signed] at hsmall
  have h0 : m ≠ 0 := fun h0 => hne ((signed_eq_zero_iff ..).2 (by rw [h0, zero_mul]))
  obtain ⟨-, heq⟩ | ⟨j, hje, hlo, -, -⟩ := fpNorm_cases c s e hm h0
  · rw [heq]
    exact fpUnderflow_faultsWith c
  · have hle : m * 16 ^ j ≤ m * 16 ^ e := Nat.mul_le_mul_left m (Nat.pow_le_pow_right (by decide) hje)
    omega

end Norm

end Sys2Proof.Machine
end

section
/-! Floating-point addition (46_floating_point.md R308): what the aligned sum is worth, and the outcome where no digit
is lost and where digits are. -/

namespace Sys2Proof.Machine

/-! ### The aligned sum -/

/-- The exponent field of the aligned operands (R308 step 1). -/
def alignedExp (a b : Full) : Nat := max (fpExp a) (fpExp b)

/-- The sum of the two fractions after their alignment, with its sign (R308 step 2). -/
def alignedSum (a b : Full) : Int :=
  signed (fpSign a) (fpFrac a / 16 ^ (alignedExp a b - fpExp a) : Nat) +
    signed (fpSign b) (fpFrac b / 16 ^ (alignedExp a b - fpExp b) : Nat)

/-- What the digits that the alignment to exponent `e` shifts out of a word are worth. -/
def shiftedOut (w : Full) (e : Nat) : Nat := fpFrac w % 16 ^ (e - fpExp w) * 16 ^ fpExp w

section Aligned

variable {a b w : Full} {e : Nat}

theorem alignedExp_lt (a b : Full) : alignedExp a b < 128 := max_lt (fpExp_lt a) (fpExp_lt b)

theorem le_alignedExp_left (a b : Full) : fpExp a ≤ alignedExp a b := le_max_left ..

theorem le_alignedExp_right (a b : Full) : fpExp b ≤ alignedExp a b := le_max_right ..

/-- The alignment splits a word into the part that is kept and the part that is shifted out. -/
theorem fpScaled_eq_aligned_add (h : fpExp w ≤ e) :
    fpScaled w = signed (fpSign w) (fpFrac w / 16 ^ (e - fpExp w)) * 16 ^ e + signed (fpSign w) (shiftedOut w e) := by
  have hsplit : fpFrac w * 16 ^ fpExp w = fpFrac w / 16 ^ (e - fpExp w) * 16 ^ e + shiftedOut w e := by
    calc fpFrac w * 16 ^ fpExp w
        = (16 ^ (e - fpExp w) * (fpFrac w / 16 ^ (e - fpExp w)) + fpFrac w % 16 ^ (e - fpExp w)) * 16 ^ fpExp w := by
          rw [Nat.div_add_mod]
      _ = fpFrac w / 16 ^ (e - fpExp w) * (16 ^ (e - fpExp w) * 16 ^ fpExp w) + shiftedOut w e := by
          rw [shiftedOut]; ring
      _ = _ := by rw [← pow_add, Nat.sub_add_cancel h]
  rw [fpScaled, hsplit, signed_add, ← signed_mul_pow]

theorem shiftedOut_lt (h : fpExp w ≤ e) : shiftedOut w e < 16 ^ e := by
  calc shiftedOut w e < 16 ^ (e - fpExp w) * 16 ^ fpExp w :=
        Nat.mul_lt_mul_of_pos_right (Nat.mod_lt _ (by positivity)) (by positivity)
    _ = 16 ^ e := by rw [← pow_add, Nat.sub_add_cancel h]

/-- The operand of the greater exponent is not shifted. -/
theorem shiftedOut_self (w : Full) : shiftedOut w (fpExp w) = 0 := by
  rw [shiftedOut, Nat.sub_self, pow_zero, Nat.mod_one, zero_mul]

theorem shiftedOut_eq_zero (h : fpFrac w % 16 ^ (e - fpExp w) = 0) : shiftedOut w e = 0 := by
  rw [shiftedOut, h, zero_mul]

/-- The exact sum is the aligned one and what is shifted out of the two operands. -/
theorem fpScaled_add_eq (a b : Full) :
    fpScaled a + fpScaled b = alignedSum a b * 16 ^ alignedExp a b +
      (signed (fpSign a) (shiftedOut a (alignedExp a b)) + signed (fpSign b) (shiftedOut b (alignedExp a b))) := by
  rw [fpScaled_eq_aligned_add (le_alignedExp_left a b), fpScaled_eq_aligned_add (le_alignedExp_right a b), alignedSum]
  ring

/-- One operand alone is shifted, so that the aligned sum is less than one unit off the exact one (R308). -/
theorem natAbs_sub_alignedSum_lt (a b : Full) :
    (fpScaled a + fpScaled b - alignedSum a b * 16 ^ alignedExp a b).natAbs < 16 ^ alignedExp a b := by
  rw [fpScaled_add_eq, add_sub_cancel_left]
  rcases le_total (fpExp a) (fpExp b) with h | h
  · rw [show shiftedOut b (alignedExp a b) = 0 by rw [alignedExp, max_eq_right h, shiftedOut_self],
      (signed_eq_zero_iff _ 0).2 rfl, add_zero, natAbs_signed]
    exact shiftedOut_lt (le_alignedExp_left a b)
  · rw [show shiftedOut a (alignedExp a b) = 0 by rw [alignedExp, max_eq_left h, shiftedOut_self],
      (signed_eq_zero_iff _ 0).2 rfl, zero_add, natAbs_signed]
    exact shiftedOut_lt (le_alignedExp_right a b)

theorem natAbs_alignedSum_mul_pow (a b : Full) :
    (alignedSum a b * 16 ^ alignedExp a b).natAbs = (alignedSum a b).natAbs * 16 ^ alignedExp a b := by
  rw [Int.natAbs_mul, Int.natAbs_pow]
  rfl

theorem natAbs_fpUnit (a b : Full) : (fpUnit a b).natAbs = 16 ^ alignedExp a b := Int.natAbs_pow ..

/-- Shifting a number left by digits keeps its sign. -/
theorem sign_mul_pow (t : Int) (n : Nat) : (t * 16 ^ n).sign = t.sign := by
  rw [Int.sign_mul, Int.sign_eq_one_of_pos (by positivity : (0 : Int) < 16 ^ n), mul_one]

theorem natAbs_alignedSum_lt (a b : Full) : (alignedSum a b).natAbs < 2 ^ 25 := by
  refine lt_of_le_of_lt (Int.natAbs_add_le ..) ?_
  rw [natAbs_signed, natAbs_signed]
  have ha := lt_of_le_of_lt (Nat.div_le_self (fpFrac a) (16 ^ (alignedExp a b - fpExp a))) (fpFrac_lt a)
  have hb := lt_of_le_of_lt (Nat.div_le_self (fpFrac b) (16 ^ (alignedExp a b - fpExp b))) (fpFrac_lt b)
  omega

/-- A sum that loses no digit: the alignment shifts out zeros, and so does a carry (R308 (i)). -/
theorem fpAddLoses_eq_false_iff : fpAddLoses a b = false ↔
    fpFrac a % 16 ^ (alignedExp a b - fpExp a) = 0 ∧ fpFrac b % 16 ^ (alignedExp a b - fpExp b) = 0 ∧
      (2 ^ 24 ≤ (alignedSum a b).natAbs → (alignedSum a b).natAbs % 16 = 0) := by
  have hdef : fpAddLoses a b = (!(fpFrac a % 16 ^ (alignedExp a b - fpExp a) == 0) ||
      !(fpFrac b % 16 ^ (alignedExp a b - fpExp b) == 0) ||
      (decide (2 ^ 24 ≤ (alignedSum a b).natAbs) && !((alignedSum a b).natAbs % 16 == 0))) := rfl
  rw [hdef]
  simp [and_assoc]

theorem fpScaled_add_eq_alignedSum (h : fpAddLoses a b = false) :
    fpScaled a + fpScaled b = alignedSum a b * 16 ^ alignedExp a b := by
  obtain ⟨ha, hb, -⟩ := fpAddLoses_eq_false_iff.1 h
  rw [fpScaled_add_eq, shiftedOut_eq_zero ha, shiftedOut_eq_zero hb]
  simp [signed]

/-- What is less than a unit off a multiple of it that is not zero has the multiple's sign. -/
theorem sign_eq_of_natAbs_sub_lt {x t : Int} {u : Nat} (h : (x - t * u).natAbs < u) (ht : t ≠ 0) : x.sign = t.sign := by
  have hu : (0 : Int) < u := by omega
  rcases lt_or_gt_of_ne ht with hneg | hpos
  · have : t * u ≤ -1 * u := Int.mul_le_mul_of_nonneg_right (by omega) hu.le
    rw [Int.sign_eq_neg_one_of_neg hneg, Int.sign_eq_neg_one_of_neg (by omega)]
  · have : 1 * (u : Int) ≤ t * u := Int.mul_le_mul_of_nonneg_right (by omega) hu.le
    rw [Int.sign_eq_one_of_pos hpos, Int.sign_eq_one_of_pos (by omega)]

theorem sign_fpScaled_add (h : alignedSum a b ≠ 0) : (fpScaled a + fpScaled b).sign = (alignedSum a b).sign :=
  sign_eq_of_natAbs_sub_lt (u := 16 ^ alignedExp a b) (by exact_mod_cast natAbs_sub_alignedSum_lt a b) h

theorem signed_natAbs_mul_pow (t : Int) (k : Nat) : signed (decide (t < 0)) (t.natAbs * 16 ^ k) = t * 16 ^ k := by
  rw [← signed_mul_pow, signed_natAbs]

end Aligned

/-! ### The outcome of an addition -/

/-- The Condition Code of a sum that overflows: V set, G or L by the sign of the exact sum (R308). -/
def sumOverflowFlags (x : Int) (cc : Cc) : Prop := cc.v = true ∧ (cc.g = true ↔ 0 < x) ∧ (cc.l = true ↔ x < 0)

/-- The outcome of a sum whose exact value is `x` where no digit is lost (R308 (i), R303). -/
def FpOutcome.isExact (o : FpOutcome) (x : Int) : Prop :=
  (¬ tooLarge x → ¬ tooSmall x → o.gives (wordOf x) (floatFlags x)) ∧
    (tooLarge x → o.faultsWith (maxMag (decide (x < 0))) (sumOverflowFlags x)) ∧
    (tooSmall x → o.faultsWith 0 underflowFlags)

/-- The outcome of a sum whose exact value is `x` where digits are lost: that of a result less than `slack` off (R308
(ii), log 26). -/
def FpOutcome.isNear (o : FpOutcome) (x : Int) (slack : Nat) : Prop :=
  (∃ r, normalised r = true ∧ (fpScaled r - x).natAbs < slack ∧ sameSide (fpScaled r) x = true ∧
      o.gives (· = r) (floatFlags (fpScaled r))) ∨
    (2 ^ 24 * 16 ^ 127 < x.natAbs + slack ∧ o.faultsWith (maxMag (decide (x < 0))) (sumOverflowFlags x)) ∨
    (x ≠ 0 ∧ x.natAbs < 2 ^ 20 + slack ∧ o.faultsWith 0 underflowFlags)

section Sums

variable {a b : Full} {o : FpOutcome} {x t : Int}

theorem not_tooSmall_of_tooLarge (h : tooLarge x) : ¬ tooSmall x := fun ⟨_, hsmall⟩ => by
  rw [tooLarge] at h
  omega

theorem FpOutcome.gives.isExact (h : o.gives (wordOf x) (floatFlags x)) (hl : ¬ tooLarge x) (hs : ¬ tooSmall x) :
    o.isExact x := ⟨fun _ _ => h, fun hl' => absurd hl' hl, fun hs' => absurd hs' hs⟩

theorem FpOutcome.faultsWith.isExact (h : o.faultsWith (maxMag (decide (x < 0))) (sumOverflowFlags x))
    (hl : tooLarge x) : o.isExact x :=
  ⟨fun hl' => absurd hl hl', fun _ => h, fun hs => absurd hs (not_tooSmall_of_tooLarge hl)⟩

/-- Norm of a fraction that fits is exact or the underflow: no such value is above the greatest magnitude (R302). -/
theorem fpNorm_isExact {e m : Nat} (c s : Bool) (he : e < 128) (hm : m < 2 ^ 24) :
    (fpNorm c s e m).isExact (signed s (m * 16 ^ e)) := by
  have hnotLarge : ¬ tooLarge (signed s (m * 16 ^ e)) := by
    rw [tooLarge, natAbs_signed, not_lt]
    exact Nat.mul_le_mul (by omega) (Nat.pow_le_pow_right (by decide) (by omega))
  exact ⟨fun _ hs => fpNorm_gives c s he hm hs, fun hl => absurd hl hnotLarge, fun hs => fpNorm_faultsWith c hm hs⟩

/-- The overflow that takes its sign from `t` is that of an exact sum of the same sign. -/
theorem fpOverflow_faultsWith_sum (c : Bool) (h : x.sign = t.sign) (ht : t ≠ 0) :
    (fpOverflow c (!decide (t < 0)) (decide (t < 0)) (decide (t < 0))).faultsWith (maxMag (decide (x < 0)))
      (sumOverflowFlags x) := by
  have hneg := neg_iff_of_sign_eq h
  have hpos := pos_iff_of_sign_eq h
  refine ⟨by rw [decide_eq_decide.2 hneg]; rfl, rfl, rfl, ?_, ?_⟩
  · rw [hpos]; simp [fpOverflow]; omega
  · rw [hneg]; simp [fpOverflow]

/-- Values of one sign are not on opposite sides of zero. -/
theorem sameSide_of_sign_eq {r : Int} (h : x.sign = r.sign) : sameSide r x = true := by
  have hneg := neg_iff_of_sign_eq h
  have hpos := pos_iff_of_sign_eq h
  simp [sameSide]
  omega

/-- Steps 1 to 4 of the addition over the aligned sum (R308). -/
theorem fpAddPlain_eq (c : Bool) (a b : Full) : fpAddPlain c a b =
    if 2 ^ 24 ≤ (alignedSum a b).natAbs then
      if 127 < alignedExp a b + 1 then
        fpOverflow c (!decide (alignedSum a b < 0)) (decide (alignedSum a b < 0)) (decide (alignedSum a b < 0))
      else
        fpOrdinary c (fpWord (decide (alignedSum a b < 0)) (alignedExp a b + 1) ((alignedSum a b).natAbs / 16))
    else fpNorm c (decide (alignedSum a b < 0)) (alignedExp a b) (alignedSum a b).natAbs := rfl

/-- The word of a sum with a carry (R308 step 3). -/
def carriedWord (a b : Full) : Full :=
  fpWord (decide (alignedSum a b < 0)) (alignedExp a b + 1) ((alignedSum a b).natAbs / 16)

/-- What an addition does as written, by the carry and the exponent (R308). -/
theorem fpAddPlain_cases (c : Bool) (a b : Full) :
    ((alignedSum a b).natAbs < 2 ^ 24 ∧
        fpAddPlain c a b = fpNorm c (decide (alignedSum a b < 0)) (alignedExp a b) (alignedSum a b).natAbs) ∨
      (2 ^ 24 ≤ (alignedSum a b).natAbs ∧ alignedExp a b = 127 ∧ fpAddPlain c a b =
        fpOverflow c (!decide (alignedSum a b < 0)) (decide (alignedSum a b < 0)) (decide (alignedSum a b < 0))) ∨
      (2 ^ 24 ≤ (alignedSum a b).natAbs ∧ alignedExp a b < 127 ∧
        fpAddPlain c a b = fpOrdinary c (carriedWord a b)) := by
  have hexp := alignedExp_lt a b
  by_cases hcarry : 2 ^ 24 ≤ (alignedSum a b).natAbs
  · by_cases hover : 127 < alignedExp a b + 1
    · exact .inr (.inl ⟨hcarry, by omega, by rw [fpAddPlain_eq, if_pos hcarry, if_pos hover]⟩)
    · exact .inr (.inr ⟨hcarry, by omega, by rw [fpAddPlain_eq, if_pos hcarry, if_neg hover]; rfl⟩)
  · exact .inl ⟨by omega, by rw [fpAddPlain_eq, if_neg hcarry]⟩

section Carry

variable (hcarry : 2 ^ 24 ≤ (alignedSum a b).natAbs) (hexp : alignedExp a b < 127)

include hcarry

theorem normalised_carriedWord : normalised (carriedWord a b) = true := by
  have := natAbs_alignedSum_lt a b
  exact normalised_fpWord (by omega) (by omega)

include hexp

/-- A carry drops the last digit of the aligned sum (R308 step 3). -/
theorem fpScaled_carriedWord : fpScaled (carriedWord a b) =
    alignedSum a b * 16 ^ alignedExp a b -
      signed (decide (alignedSum a b < 0)) ((alignedSum a b).natAbs % 16 * 16 ^ alignedExp a b) := by
  have hsum := natAbs_alignedSum_lt a b
  have hsplit : (alignedSum a b).natAbs * 16 ^ alignedExp a b =
      (alignedSum a b).natAbs / 16 * 16 ^ (alignedExp a b + 1) +
        (alignedSum a b).natAbs % 16 * 16 ^ alignedExp a b := by
    rw [pow_succ', ← mul_assoc, ← add_mul, Nat.div_add_mod']
  have hvalue := signed_natAbs_mul_pow (alignedSum a b) (alignedExp a b)
  rw [hsplit, signed_add] at hvalue
  rw [carriedWord, fpScaled_fpWord (by omega) (by omega), ← hvalue, add_sub_cancel_right]

theorem sign_fpScaled_carriedWord : (fpScaled (carriedWord a b)).sign = (alignedSum a b).sign := by
  have hsum := natAbs_alignedSum_lt a b
  have hdigits : 0 < (alignedSum a b).natAbs / 16 := by omega
  rw [carriedWord, fpScaled_fpWord (by omega) (by omega), sign_signed_of_pos _ (by positivity)]
  conv_rhs => rw [← signed_natAbs (alignedSum a b)]
  rw [sign_signed_of_pos _ (by omega)]

end Carry

/-- Addition as written where no digit is lost (R308 (i)). -/
theorem fpAddPlain_isExact (c : Bool) (h : fpAddLoses a b = false) :
    (fpAddPlain c a b).isExact (fpScaled a + fpScaled b) := by
  obtain ⟨-, -, hdigit⟩ := fpAddLoses_eq_false_iff.1 h
  have hvalue := signed_natAbs_mul_pow (alignedSum a b) (alignedExp a b)
  rw [← fpScaled_add_eq_alignedSum h] at hvalue
  have hsize : (fpScaled a + fpScaled b).natAbs = (alignedSum a b).natAbs * 16 ^ alignedExp a b := by
    rw [← hvalue, natAbs_signed]
  have hbound := natAbs_alignedSum_lt a b
  obtain ⟨hlt, heq⟩ | ⟨hcarry, hexp, heq⟩ | ⟨hcarry, hexp, heq⟩ := fpAddPlain_cases c a b <;> rw [heq]
  · rw [← hvalue]
    exact fpNorm_isExact c _ (alignedExp_lt a b) hlt
  · have hlarge : tooLarge (fpScaled a + fpScaled b) := by
      rw [tooLarge, hsize, hexp]
      exact Nat.mul_lt_mul_of_pos_right (by omega) (by positivity)
    have hne : alignedSum a b ≠ 0 := by omega
    exact (fpOverflow_faultsWith_sum c (sign_fpScaled_add hne) hne).isExact hlarge
  · have hnotLarge : ¬ tooLarge (fpScaled a + fpScaled b) := by
      rw [tooLarge, hsize, not_lt]
      calc (alignedSum a b).natAbs * 16 ^ alignedExp a b ≤ 2 ^ 25 * 16 ^ 126 :=
            Nat.mul_le_mul hbound.le (Nat.pow_le_pow_right (by decide) (by omega))
        _ ≤ (2 ^ 24 - 1) * 16 ^ 127 := by norm_num
    have hnotSmall : ¬ tooSmall (fpScaled a + fpScaled b) := fun ⟨_, hsmall⟩ => by
      have hle := Nat.le_mul_of_pos_right (alignedSum a b).natAbs (show 0 < 16 ^ alignedExp a b by positivity)
      omega
    have hword : fpScaled (carriedWord a b) = fpScaled a + fpScaled b := by
      rw [fpScaled_carriedWord hcarry hexp, hdigit hcarry, zero_mul, (signed_eq_zero_iff _ 0).2 rfl, sub_zero,
        fpScaled_add_eq_alignedSum h]
    have hnorm := normalised_carriedWord hcarry
    exact (fpOrdinary_gives hnorm (by rw [hword]) ⟨hnorm, hword⟩).isExact hnotLarge hnotSmall

/-- A sum without a carry that the alignment has moved by less than a unit (R308 (ii)). -/
theorem fpNorm_alignedSum_isNear (c : Bool) (h : (alignedSum a b).natAbs < 2 ^ 24) :
    (fpNorm c (decide (alignedSum a b < 0)) (alignedExp a b) (alignedSum a b).natAbs).isNear
      (fpScaled a + fpScaled b) (17 * 16 ^ alignedExp a b) := by
  have hnear := natAbs_sub_alignedSum_lt a b
  have hvalue := signed_natAbs_mul_pow (alignedSum a b) (alignedExp a b)
  by_cases hsmall : tooSmall (alignedSum a b * 16 ^ alignedExp a b)
  · have hne : alignedSum a b ≠ 0 := left_ne_zero_of_mul hsmall.1
    refine .inr (.inr ⟨fun hx => hne ?_, by have := hsmall.2; omega, fpNorm_faultsWith c h (by rwa [hvalue])⟩)
    exact Int.sign_eq_zero_iff_zero.1 ((sign_fpScaled_add hne).symm.trans (by rw [hx, Int.sign_zero]))
  · obtain ⟨r, hstore, hfault, ⟨hnorm, hr⟩, hcc⟩ :=
      fpNorm_gives c (decide (alignedSum a b < 0)) (alignedExp_lt a b) h (by rwa [hvalue])
    rw [hvalue] at hr hcc
    refine .inl ⟨r, hnorm, by rw [hr]; omega, ?_, r, hstore, hfault, rfl, by rwa [hr]⟩
    rw [hr]
    by_cases ht : alignedSum a b = 0
    · rw [ht, zero_mul]; simp [sameSide]
    · exact sameSide_of_sign_eq (by rw [sign_fpScaled_add ht, sign_mul_pow])

/-- Addition as written where digits are lost (R308 (ii)): less than one unit by the alignment, less than sixteen by a
carry. -/
theorem fpAddPlain_isNear (c : Bool) (a b : Full) :
    (fpAddPlain c a b).isNear (fpScaled a + fpScaled b) (17 * 16 ^ alignedExp a b) := by
  have hnear := natAbs_sub_alignedSum_lt a b
  obtain ⟨hlt, heq⟩ | ⟨hcarry, hexp, heq⟩ | ⟨hcarry, hexp, heq⟩ := fpAddPlain_cases c a b <;> rw [heq]
  · exact fpNorm_alignedSum_isNear c hlt
  · have hne : alignedSum a b ≠ 0 := by omega
    have hsize := natAbs_alignedSum_mul_pow a b
    have hle : 2 ^ 24 * 16 ^ alignedExp a b ≤ (alignedSum a b).natAbs * 16 ^ alignedExp a b :=
      Nat.mul_le_mul_right _ hcarry
    refine .inr (.inl ⟨?_, fpOverflow_faultsWith_sum c (sign_fpScaled_add hne) hne⟩)
    rw [hexp] at hnear hsize hle ⊢
    omega
  · have hne : alignedSum a b ≠ 0 := by omega
    have hnorm := normalised_carriedWord hcarry
    have hdropped : (fpScaled (carriedWord a b) - alignedSum a b * 16 ^ alignedExp a b).natAbs ≤
        15 * 16 ^ alignedExp a b := by
      rw [fpScaled_carriedWord hcarry hexp, sub_sub_cancel_left, Int.natAbs_neg, natAbs_signed]
      exact Nat.mul_le_mul_right _ (by omega)
    have hsign : (fpScaled a + fpScaled b).sign = (fpScaled (carriedWord a b)).sign := by
      rw [sign_fpScaled_add hne, sign_fpScaled_carriedWord hcarry hexp]
    exact .inl ⟨_, hnorm, by omega, sameSide_of_sign_eq hsign, fpOrdinary_gives hnorm rfl rfl⟩

/-- The overflow that the free values may choose is near the exact sum, whose sign it has (R308 (ii), log 26). -/
theorem fpOverflow_isNear (c : Bool) (h : fpAddMayOverflow a b = true) :
    let negative := decide (fpScaled a + fpScaled b < 0)
    (fpOverflow c (!negative) negative negative).isNear (fpScaled a + fpScaled b) (17 * 16 ^ alignedExp a b) := by
  have hover : 2 ^ 24 * 16 ^ 127 < (fpScaled a + fpScaled b).natAbs + 17 * (fpUnit a b).natAbs := of_decide_eq_true h
  rw [natAbs_fpUnit] at hover
  have hunit : 16 ^ alignedExp a b ≤ 16 ^ 127 :=
    Nat.pow_le_pow_right (by decide) (by have := alignedExp_lt a b; omega)
  exact .inr (.inl ⟨hover, fpOverflow_faultsWith_sum c rfl (by omega)⟩)

theorem fpUnderflow_isNear (c : Bool) (h : fpAddMayUnderflow a b = true) :
    (fpUnderflow c).isNear (fpScaled a + fpScaled b) (17 * 16 ^ alignedExp a b) := by
  simp only [fpAddMayUnderflow, Bool.and_eq_true, Bool.not_eq_true', beq_eq_false_iff_ne, decide_eq_true_eq,
    natAbs_fpUnit] at h
  exact .inr (.inr ⟨h.1, h.2, fpUnderflow_faultsWith c⟩)

theorem fpOrdinary_isNear (c : Bool) {r : Full} (h : fpAddAdmits a b r = true) :
    (fpOrdinary c r).isNear (fpScaled a + fpScaled b) (17 * 16 ^ alignedExp a b) := by
  simp only [fpAddAdmits, Bool.and_eq_true, decide_eq_true_eq, natAbs_fpUnit] at h
  obtain ⟨⟨hnorm, hclose⟩, hside⟩ := h
  exact .inl ⟨r, hnorm, hclose, hside, fpOrdinary_gives hnorm rfl rfl⟩

/-- FpAdd where no digit is lost, whatever the free values (R308 (i)). -/
theorem fpAdd_isExact (d : FpDraw) (h : fpAddLoses a b = false) : (fpAdd d a b).isExact (fpScaled a + fpScaled b) := by
  rw [fpAdd, h, Bool.not_false, if_pos rfl]
  exact fpAddPlain_isExact _ h

/-- FpAdd where digits are lost: whatever the free values choose is near the exact sum (R308 (ii), log 26). -/
theorem fpAdd_isNear (d : FpDraw) (h : fpAddLoses a b = true) :
    (fpAdd d a b).isNear (fpScaled a + fpScaled b) (17 * 16 ^ alignedExp a b) := by
  rw [fpAdd, h, Bool.not_true, if_neg Bool.false_ne_true]
  split
  case isTrue hover => exact fpOverflow_isNear _ (Bool.and_eq_true_iff.1 hover).2
  split
  case isTrue hunder => exact fpUnderflow_isNear _ (Bool.and_eq_true_iff.1 hunder).2
  split
  case isTrue hadmits => exact fpOrdinary_isNear _ hadmits
  case isFalse => exact fpAddPlain_isNear _ a b

end Sums

end Sys2Proof.Machine
end

section
/-! Floating-point multiplication and division (46_floating_point.md R314, R316): the rounded fraction, then the
outcomes by the exponent fields and the exact result. -/

namespace Sys2Proof.Machine

/-! ### The rounded fraction -/

section Rounding

variable {n q k : Nat}

/-- Rounding to either neighbour is less than one off (R314 Round24, R316 RoundQ). -/
theorem natAbs_roundedDiv_mul_sub_lt (free : Bool) (n : Nat) (hq : 0 < q) :
    ((roundedDiv free n q * q : Nat) - (n : Int)).natAbs < q := by
  have hdiv : q * (n / q) + n % q = n := Nat.div_add_mod n q
  have hmod := Nat.mod_lt n hq
  rw [mul_comm] at hdiv
  rw [roundedDiv]
  split
  case isTrue hexact => omega
  case isFalse hexact =>
    split
    · rw [add_one_mul]; omega
    · omega

/-- Rounding does not pass a bound that the exact quotient keeps. -/
theorem roundedDiv_le (free : Bool) (h : n ≤ k * q) : roundedDiv free n q ≤ k := by
  have hle : n / q ≤ k := Nat.div_le_of_le_mul (by rwa [mul_comm])
  rw [roundedDiv]
  split
  case isTrue => exact hle
  case isFalse hexact =>
    split
    · refine Nat.succ_le_of_lt (lt_of_le_of_ne hle fun heq => hexact ?_)
      have := Nat.div_add_mod n q
      rw [heq, mul_comm] at this
      omega
    · exact hle

theorem le_roundedDiv (free : Bool) (h : k * q ≤ n) (hq : 0 < q) : k ≤ roundedDiv free n q := by
  have hle : k ≤ n / q := (Nat.le_div_iff_mul_le hq).2 h
  rw [roundedDiv]
  split
  case isTrue => exact hle
  case isFalse =>
    split
    · omega
    · exact hle

/-- The word that a rounded fraction is packed into: a carry out of the six digits moves to the exponent, and the value
stays (R314, R316). -/
theorem fpPack_eq {overflow : FpOutcome} {e m : Nat} (c s : Bool) (he : e < 128) (hlo : 2 ^ 20 ≤ m) (hhi : m ≤ 2 ^ 24)
    (hcarry : e = 127 → m < 2 ^ 24) :
    ∃ w, fpPack overflow c s e m = fpOrdinary c w ∧ normalised w = true ∧ e ≤ fpExp w ∧
      fpScaled w = signed s (m * 16 ^ e) := by
  by_cases hm : m = 2 ^ 24
  · have he' : e + 1 < 128 := by omega
    refine ⟨fpWord s (e + 1) (2 ^ 20), ?_, normalised_fpWord (by decide) le_rfl, ?_, ?_⟩
    · simp only [fpPack, if_pos hm, if_neg (show ¬ 127 < e + 1 by omega)]
    · rw [fpExp_fpWord he']
      exact Nat.le_succ e
    · rw [fpScaled_fpWord he' (by decide), hm, show 2 ^ 24 = 2 ^ 20 * 16 from rfl, mul_assoc, pow_succ' 16 e]
  · refine ⟨fpWord s e m, ?_, normalised_fpWord (by omega) hlo, (fpExp_fpWord he).ge, fpScaled_fpWord he (by omega)⟩
    simp only [fpPack, if_neg hm, if_neg (show ¬ 127 < e by omega)]

/-- A word of sign `s` for the fraction `n / q` with exponent field `e`, less than one unit off (R314, R316). -/
def roundedWord (s : Bool) (e n q : Nat) (r : Full) : Prop :=
  normalised r = true ∧ e ≤ fpExp r ∧
    ∃ m, fpScaled r = signed s (m * 16 ^ e) ∧ ((m * q : Nat) - (n : Int)).natAbs < q

/-- A quotient of integers that six digits hold is rounded and packed, with a carry where the exponent admits one (R314,
R316). -/
theorem fpPack_gives {overflow : FpOutcome} {e : Nat} (c s free : Bool) (he : e < 128) (hq : 0 < q)
    (hlo : 2 ^ 20 * q ≤ n) (hhi : n ≤ 2 ^ 24 * q) (hcarry : e = 127 → n ≤ (2 ^ 24 - 1) * q) :
    (fpPack overflow c s e (roundedDiv free n q)).gives (roundedWord s e n q) (floatFlags (signed s 1)) := by
  have hm : 2 ^ 20 ≤ roundedDiv free n q := le_roundedDiv free hlo hq
  obtain ⟨w, heq, hnorm, hexp, hvalue⟩ := fpPack_eq (overflow := overflow) c s he hm (roundedDiv_le free hhi)
    fun h => Nat.lt_of_le_pred (by decide) (roundedDiv_le free (hcarry h))
  rw [heq]
  refine fpOrdinary_gives hnorm ?_ ⟨hnorm, hexp, _, hvalue, natAbs_roundedDiv_mul_sub_lt free n hq⟩
  rw [hvalue, sign_signed_of_pos _ (by positivity), sign_signed_of_pos _ one_pos]

/-- The error of a rounding, scaled. -/
theorem natAbs_signed_scaled_sub_lt {m u : Nat} (s : Bool) (h : ((m * q : Nat) - (n : Int)).natAbs < q) (hu : 0 < u) :
    (signed s (m * q * u) - signed s (n * u)).natAbs < q * u := by
  rw [natAbs_signed_sub, Nat.cast_mul _ u, Nat.cast_mul n, ← sub_mul, Int.natAbs_mul, Int.natAbs_natCast]
  exact Nat.mul_lt_mul_of_pos_right h hu

end Rounding

/-! ### Multiplication -/

/-- A normalised word less than one unit of its last place from a product, both times 16^140 (R314). -/
def nearProduct (x : Int) (r : Full) : Prop :=
  normalised r = true ∧ (fpScaled r * 16 ^ 70 - x).natAbs < 16 ^ (fpExp r + 70)

/-- The outcome of a product of words with exponent fields that add up to `sum`, sign `s` and exact value `x` (R314). -/
def FpOutcome.isProduct (o : FpOutcome) (sum : Nat) (s : Bool) (x : Int) : Prop :=
  (191 < sum → o.faultsWith (maxMag s) (·.v = true)) ∧
    (x ≠ 0 → sum ≤ 191 → 2 ^ 20 * 16 ^ 70 ≤ x.natAbs → o.gives (nearProduct x) (floatFlags x)) ∧
    (x ≠ 0 → x.natAbs < 2 ^ 20 * 16 ^ 70 → o.faultsWith 0 underflowFlags) ∧
    (x = 0 → o.gives (· = 0) (floatFlags 0) ∨ (sum < 64 ∧ o.faultsWith 0 underflowFlags))

section Product

variable {a b : Full}

/-- The exact product has the sign of R314 and the product of the fractions as its digits. -/
theorem fpScaled_mul (a b : Full) : fpScaled a * fpScaled b =
    signed (fpSign a ^^ fpSign b) (fpFrac a * fpFrac b * 16 ^ (fpExp a + fpExp b)) := by
  rw [fpScaled, fpScaled, signed_mul_signed, pow_add, Nat.mul_mul_mul_comm]

/-- A rounded product of six digits is near the exact one. -/
theorem roundedWord.nearProduct {s : Bool} {e p k : Nat} {r : Full} (h : roundedWord s e p (16 ^ 6) r)
    (hk : k = e + 64) : nearProduct (signed s (p * 16 ^ k)) r := by
  obtain ⟨hnorm, hexp, m, hvalue, hnear⟩ := h
  refine ⟨hnorm, ?_⟩
  have hscale : signed s (m * 16 ^ e) * 16 ^ 70 = signed s (m * 16 ^ 6 * 16 ^ k) := by
    have hpow : 16 ^ e * 16 ^ 70 = 16 ^ 6 * 16 ^ k := by rw [← pow_add, ← pow_add, hk]; congr 1; omega
    rw [signed_mul_pow, mul_assoc, hpow, ← mul_assoc]
  rw [hvalue, hscale]
  calc _ < 16 ^ 6 * 16 ^ k := natAbs_signed_scaled_sub_lt s hnear (by positivity)
    _ = 16 ^ (e + 70) := by rw [← pow_add, hk]; congr 1; omega
    _ ≤ 16 ^ (fpExp r + 70) := Nat.pow_le_pow_right (by decide) (by omega)

/-- FpMul where the exponent fields overflow (R314). -/
theorem fpMul_overflow (d : FpDraw) (h : 191 < fpExp a + fpExp b) :
    fpMul d a b = fpOverflow (d.bit 0) (d.bit 2) (d.bit 3) (fpSign a ^^ fpSign b) :=
  if_pos (by omega)

/-- FpMul with a zero operand: the zero, or the underflow where the exponents alone underflow (R314, log 27). -/
theorem fpMul_zero (d : FpDraw) (h : fpExp a + fpExp b ≤ 191) (h0 : fpFrac a * fpFrac b = 0) :
    fpMul d a b = fpOrdinary (d.bit 0) trueZero ∨ (fpExp a + fpExp b < 64 ∧ fpMul d a b = fpUnderflow (d.bit 0)) := by
  rw [fpMul, if_neg (by omega), if_pos h0]
  split
  case isTrue hfree =>
    obtain ⟨hexp, -⟩ := Bool.and_eq_true_iff.1 hfree
    exact .inr ⟨by have := of_decide_eq_true hexp; omega, rfl⟩
  case isFalse => exact .inl rfl

/-- FpMul of fractions with leading digits: below the least normalised magnitude the underflow, else the rounding of the
product `p` brought to twelve digits (R314). -/
theorem fpMul_cases (d : FpDraw) (h : fpExp a + fpExp b ≤ 191) (ha : 2 ^ 20 ≤ fpFrac a) (hb : 2 ^ 20 ≤ fpFrac b) :
    (fpFrac a * fpFrac b * 16 ^ (fpExp a + fpExp b) < 2 ^ 20 * 16 ^ 70 ∧ fpMul d a b = fpUnderflow (d.bit 0)) ∨
      ∃ e p, e < 128 ∧ 2 ^ 20 * 16 ^ 6 ≤ p ∧ p ≤ 2 ^ 24 * 16 ^ 6 ∧ (e = 127 → p ≤ (2 ^ 24 - 1) * 16 ^ 6) ∧
        fpFrac a * fpFrac b * 16 ^ (fpExp a + fpExp b) = p * 16 ^ (e + 64) ∧
        fpMul d a b = fpPack (fpOverflow (d.bit 0) (d.bit 2) (d.bit 3) (fpSign a ^^ fpSign b)) (d.bit 0)
          (fpSign a ^^ fpSign b) e (roundedDiv (d.bit 5) p (16 ^ 6)) := by
  have hlo : 2 ^ 20 * 2 ^ 20 ≤ fpFrac a * fpFrac b := Nat.mul_le_mul ha hb
  have hhi : fpFrac a * fpFrac b ≤ (2 ^ 24 - 1) * (2 ^ 24 - 1) :=
    Nat.mul_le_mul (Nat.le_sub_one_of_lt (fpFrac_lt a)) (Nat.le_sub_one_of_lt (fpFrac_lt b))
  rw [fpMul, if_neg (by omega), if_neg (by omega)]
  generalize fpFrac a * fpFrac b = p at *
  by_cases hp : p < 2 ^ 44
  case pos =>
    simp only [if_pos hp]
    by_cases hk : fpExp a + fpExp b < 65
    case pos =>
      refine .inl ⟨?_, ?_⟩
      · calc p * 16 ^ (fpExp a + fpExp b) < 2 ^ 44 * 16 ^ 64 :=
              Nat.mul_lt_mul_of_lt_of_le hp (Nat.pow_le_pow_right (by decide) (by omega)) (by positivity)
          _ = 2 ^ 20 * 16 ^ 70 := by norm_num
      · by_cases hsum : fpExp a + fpExp b < 64
        · rw [if_pos (by omega)]
        · rw [if_neg (by omega), if_pos (by omega)]
    case neg =>
      refine .inr ⟨fpExp a + fpExp b - 65, p * 16, by omega, by omega, by omega, by omega, ?_, ?_⟩
      · rw [mul_assoc, ← pow_succ']
        congr 2
        omega
      · rw [if_neg (by omega), if_neg (by omega)]
        congr 1
        omega
  case neg =>
    simp only [if_neg hp]
    by_cases hk : fpExp a + fpExp b < 64
    case pos =>
      refine .inl ⟨?_, by rw [if_pos (by omega)]⟩
      calc p * 16 ^ (fpExp a + fpExp b) < 2 ^ 48 * 16 ^ 63 :=
            Nat.mul_lt_mul_of_lt_of_le (by omega) (Nat.pow_le_pow_right (by decide) (by omega)) (by positivity)
        _ = 2 ^ 20 * 16 ^ 70 := by norm_num
    case neg =>
      refine .inr ⟨fpExp a + fpExp b - 64, p, by omega, by omega, by omega, by omega, ?_, ?_⟩
      · rw [Nat.sub_add_cancel (not_lt.1 hk)]
      · rw [if_neg (by omega), if_neg (by omega)]
        congr 1
        omega

theorem le_fpFrac_of_fpScaled_ne_zero {w : Full} (h : normalised w = true) (h0 : fpScaled w ≠ 0) :
    2 ^ 20 ≤ fpFrac w :=
  le_fpFrac_of_normalised h fun hw => h0 ((fpScaled_eq_zero_iff h).2 hw)

/-- The true zero has exponent field zero, so that a zero product cannot overflow. -/
theorem fpExp_add_lt_of_mul_eq_zero (ha : normalised a = true) (hb : normalised b = true)
    (h : fpScaled a * fpScaled b = 0) : fpExp a + fpExp b < 128 := by
  rcases mul_eq_zero.1 h with h | h
  · rw [(fpScaled_eq_zero_iff ha).1 h, fpExp_zero, zero_add]
    exact fpExp_lt b
  · rw [(fpScaled_eq_zero_iff hb).1 h, fpExp_zero, add_zero]
    exact fpExp_lt a

/-- FpMul of two normalised words, by the exponent fields and the exact product (R314). -/
theorem fpMul_isProduct (d : FpDraw) (ha : normalised a = true) (hb : normalised b = true) :
    (fpMul d a b).isProduct (fpExp a + fpExp b) (fpSign a ^^ fpSign b) (fpScaled a * fpScaled b) := by
  have hunder := fpUnderflow_faultsWith (d.bit 0)
  by_cases hzero : fpScaled a * fpScaled b = 0
  case pos =>
    have hfrac : fpFrac a * fpFrac b = 0 := by
      rwa [mul_eq_zero, fpScaled_eq_zero_iff_fpFrac, fpScaled_eq_zero_iff_fpFrac, ← mul_eq_zero] at hzero
    have hexp : fpExp a + fpExp b ≤ 191 := by
      have := fpExp_add_lt_of_mul_eq_zero ha hb hzero
      omega
    refine ⟨fun h => by omega, fun h => absurd hzero h, fun h => absurd hzero h, fun _ => ?_⟩
    obtain heq | ⟨hlt, heq⟩ := fpMul_zero d hexp hfrac
    · rw [heq]
      exact .inl (fpOrdinary_trueZero_gives rfl)
    · rw [heq]
      exact .inr ⟨hlt, hunder⟩
  case neg =>
    have ha' := le_fpFrac_of_fpScaled_ne_zero ha (left_ne_zero_of_mul hzero)
    have hb' := le_fpFrac_of_fpScaled_ne_zero hb (right_ne_zero_of_mul hzero)
    have hsize : (fpScaled a * fpScaled b).natAbs = fpFrac a * fpFrac b * 16 ^ (fpExp a + fpExp b) := by
      rw [fpScaled_mul, natAbs_signed]
    by_cases hexp : fpExp a + fpExp b ≤ 191
    case pos =>
      obtain ⟨hlt, heq⟩ | ⟨e, p, he, hlo, hhi, hcarry, hp, heq⟩ := fpMul_cases d hexp ha' hb'
      · rw [heq]
        exact ⟨fun h => by omega, fun _ _ h => by omega, fun _ _ => hunder, fun h => absurd h hzero⟩
      · have hbig : 2 ^ 20 * 16 ^ 70 ≤ p * 16 ^ (e + 64) := by
          calc 2 ^ 20 * 16 ^ 70 = 2 ^ 20 * 16 ^ 6 * 16 ^ 64 := by norm_num
            _ ≤ p * 16 ^ (e + 64) := Nat.mul_le_mul hlo (Nat.pow_le_pow_right (by decide) (by omega))
        refine ⟨fun h => by omega, fun _ _ _ => ?_, fun _ h => by omega, fun h => absurd h hzero⟩
        rw [heq, fpScaled_mul, hp]
        refine (fpPack_gives (d.bit 0) _ (d.bit 5) he (by decide) hlo hhi hcarry).mono (fun r hr => hr.nearProduct rfl)
          fun cc hcc => floatFlags_congr ?_ hcc
        rw [sign_signed_of_pos _ one_pos, sign_signed_of_pos _ (by positivity)]
    case neg =>
      have hover : 191 < fpExp a + fpExp b := not_le.1 hexp
      have hbig : 2 ^ 20 * 16 ^ 70 ≤ (fpScaled a * fpScaled b).natAbs := by
        calc 2 ^ 20 * 16 ^ 70 ≤ 2 ^ 20 * 2 ^ 20 * 16 ^ 191 := by norm_num
          _ ≤ fpFrac a * fpFrac b * 16 ^ (fpExp a + fpExp b) :=
            Nat.mul_le_mul (Nat.mul_le_mul ha' hb') (Nat.pow_le_pow_right (by decide) hover.le)
          _ = (fpScaled a * fpScaled b).natAbs := hsize.symm
      refine ⟨fun _ => ?_, fun _ h => absurd h hexp, fun _ h => by omega, fun h => absurd h hzero⟩
      rw [fpMul_overflow d hover]
      exact ⟨rfl, rfl, rfl⟩

end Product

/-! ### Division -/

/-- A normalised word less than one unit of its last place from the quotient of two words (R316). -/
def nearQuotient (a b r : Full) : Prop :=
  normalised r = true ∧
    (fpScaled r * fpScaled b - fpScaled a * 16 ^ 70).natAbs < 16 ^ fpExp r * (fpScaled b).natAbs

/-- The exponent field of a quotient is above 127 (R316). -/
def quotientTooLarge (a b : Full) : Prop :=
  fpExp b + 63 < fpExp a ∨ (fpExp a = fpExp b + 63 ∧ fpFrac b ≤ fpFrac a)

/-- The outcome of a division by a word that is not zero (R316). -/
def FpOutcome.isQuotient (o : FpOutcome) (a b : Full) : Prop :=
  (quotientTooLarge a b → o.faultsWith (maxMag (fpSign a ^^ fpSign b)) fun cc =>
      cc.v = true ∧ cc.c = false ∧ (cc.g = true ∨ cc.l = true)) ∧
    (a ≠ 0 → ¬ quotientTooLarge a b → fpExp b ≤ fpExp a + 64 →
      o.gives (nearQuotient a b) (floatFlags (fpScaled a * fpScaled b))) ∧
    (a ≠ 0 → fpExp a + 64 < fpExp b → o.faultsWith 0 fun cc => underflowFlags cc ∧ cc.c = false) ∧
    (a = 0 → o.gives (· = 0) (floatFlags 0) ∨
      (64 < fpExp b ∧ o.faultsWith 0 fun cc => underflowFlags cc ∧ cc.c = false))

section Quotient

variable {a b : Full}

/-- A rounded quotient of six digits is near the exact one: `n` over the divisor's fraction, with exponent field `e`. -/
theorem roundedWord.nearQuotient {e n : Nat} {r : Full}
    (h : roundedWord (fpSign a ^^ fpSign b) e n (fpFrac b) r)
    (hn : n * 16 ^ (e + fpExp b) = fpFrac a * 16 ^ (fpExp a + 70)) : nearQuotient a b r := by
  obtain ⟨hnorm, hexp, m, hvalue, hnear⟩ := h
  refine ⟨hnorm, ?_⟩
  have hback : fpScaled r * fpScaled b = signed (fpSign a) (m * fpFrac b * 16 ^ (e + fpExp b)) := by
    rw [hvalue, fpScaled, signed_mul_signed, pow_add, Nat.mul_mul_mul_comm, Bool.xor_assoc, Bool.xor_self,
      Bool.xor_false]
  have hdividend : fpScaled a * 16 ^ 70 = signed (fpSign a) (n * 16 ^ (e + fpExp b)) := by
    rw [fpScaled, signed_mul_pow, mul_assoc, ← pow_add, hn]
  rw [hback, hdividend, natAbs_fpScaled]
  calc _ < fpFrac b * 16 ^ (e + fpExp b) := natAbs_signed_scaled_sub_lt _ hnear (by positivity)
    _ = 16 ^ e * (fpFrac b * 16 ^ fpExp b) := by rw [pow_add, Nat.mul_left_comm]
    _ ≤ 16 ^ fpExp r * (fpFrac b * 16 ^ fpExp b) := Nat.mul_le_mul_right _ (Nat.pow_le_pow_right (by decide) hexp)

/-- On overflow a division resets C and sets G or L (R316). -/
theorem fpDivOverflow_faultsWith (d : FpDraw) (s : Bool) : (fpDivOverflow d s).faultsWith (maxMag s) fun cc =>
    cc.v = true ∧ cc.c = false ∧ (cc.g = true ∨ cc.l = true) := by
  refine ⟨rfl, rfl, rfl, rfl, ?_⟩
  cases hl : d.bit 3 <;> simp [fpDivOverflow, fpOverflow, hl]

/-- On underflow a division resets C (R316). -/
theorem fpUnderflow_false_faultsWith :
    (fpUnderflow false).faultsWith 0 fun cc => underflowFlags cc ∧ cc.c = false := ⟨rfl, rfl, ⟨rfl, rfl, rfl⟩, rfl⟩

/-- FpDiv where the exponent field of the quotient is above 127 (R316). -/
theorem fpDiv_overflow (d : FpDraw) (ha : a ≠ 0) (hb : b ≠ 0) (h : quotientTooLarge a b) :
    fpDiv d a b = fpDivOverflow d (fpSign a ^^ fpSign b) := by
  rw [fpDiv, if_neg (show ¬ b = trueZero from hb)]
  obtain hexp | ⟨hexp, hfrac⟩ := h
  · rw [if_pos (by omega)]
  · rw [if_neg (by omega), if_neg (show ¬ a = trueZero from ha), if_neg (by omega)]
    simp only [hfrac, decide_true, if_true]
    rw [if_pos (by omega)]

/-- FpDiv of a zero dividend: the zero, or the underflow where the exponents alone underflow (R316, log 27). -/
theorem fpDiv_zero (d : FpDraw) (hb : b ≠ 0) :
    fpDiv d 0 b = fpOrdinary (d.bit 0) trueZero ∨ (64 < fpExp b ∧ fpDiv d 0 b = fpUnderflow false) := by
  have hexp := fpExp_zero
  rw [fpDiv, if_neg (show ¬ b = trueZero from hb), if_neg (by omega), if_pos (show 0 = trueZero from rfl)]
  split
  case isTrue hfree =>
    obtain ⟨hlt, -⟩ := Bool.and_eq_true_iff.1 hfree
    exact .inr ⟨by have := of_decide_eq_true hlt; omega, rfl⟩
  case isFalse => exact .inl rfl

/-- FpDiv where the exponents underflow (R316). -/
theorem fpDiv_underflow (d : FpDraw) (ha : a ≠ 0) (h : fpExp a + 64 < fpExp b) : fpDiv d a b = fpUnderflow false := by
  have hb : b ≠ 0 := fun hb => by
    rw [hb, fpExp_zero] at h
    omega
  rw [fpDiv, if_neg (show ¬ b = trueZero from hb), if_neg (by omega), if_neg (show ¬ a = trueZero from ha),
    if_pos (by omega)]

/-- FpDiv elsewhere is the rounding of the quotient `n` over the divisor's fraction, brought to six digits (R316). -/
theorem fpDiv_cases (d : FpDraw) (ha : 2 ^ 20 ≤ fpFrac a) (hb : 2 ^ 20 ≤ fpFrac b) (hlarge : ¬ quotientTooLarge a b)
    (hexp : fpExp b ≤ fpExp a + 64) :
    ∃ e n, e < 128 ∧ 2 ^ 20 * fpFrac b ≤ n ∧ n ≤ (2 ^ 24 - 1) * fpFrac b ∧
      n * 16 ^ (e + fpExp b) = fpFrac a * 16 ^ (fpExp a + 70) ∧
      fpDiv d a b = fpPack (fpDivOverflow d (fpSign a ^^ fpSign b)) (d.bit 0) (fpSign a ^^ fpSign b) e
        (roundedDiv (d.bit 5) n (fpFrac b)) := by
  have ha0 : a ≠ 0 := by rintro rfl; exact absurd ha (by decide)
  have hb0 : b ≠ 0 := by rintro rfl; exact absurd hb (by decide)
  have hfa := fpFrac_lt a
  have hfb := fpFrac_lt b
  obtain ⟨hdiff, hsame⟩ := not_or.1 hlarge
  rw [fpDiv, if_neg (show ¬ b = trueZero from hb0), if_neg (by omega), if_neg (show ¬ a = trueZero from ha0),
    if_neg (by omega)]
  by_cases hbig : fpFrac b ≤ fpFrac a
  case pos =>
    have hlt : fpExp a ≠ fpExp b + 63 := fun h => hsame ⟨h, hbig⟩
    refine ⟨fpExp a + 65 - fpExp b, fpFrac a * 2 ^ 20, by omega, by omega, by omega, ?_, ?_⟩
    · rw [show (2 : Nat) ^ 20 = 16 ^ 5 from rfl, mul_assoc, ← pow_add]
      congr 2
      omega
    · simp only [hbig, decide_true, if_true]
      rw [if_neg (by omega), if_neg (by omega)]
      congr 1
      omega
  case neg =>
    refine ⟨fpExp a + 64 - fpExp b, fpFrac a * 2 ^ 24, by omega, by omega, by omega, ?_, ?_⟩
    · rw [show (2 : Nat) ^ 24 = 16 ^ 6 from rfl, mul_assoc, ← pow_add]
      congr 2
      omega
    · simp only [hbig, decide_false, Bool.false_eq_true, if_false]
      rw [if_neg (by omega), if_neg (by omega)]
      congr 1
      omega

/-- FpDiv of normalised words by one that is not zero (R316). -/
theorem fpDiv_isQuotient (d : FpDraw) (ha : normalised a = true) (hb : normalised b = true) (hb0 : b ≠ 0) :
    (fpDiv d a b).isQuotient a b := by
  by_cases ha0 : a = 0
  case pos =>
    subst ha0
    have hnotLarge : ¬ quotientTooLarge 0 b := by
      rw [quotientTooLarge, fpExp_zero]
      omega
    refine ⟨fun h => absurd h hnotLarge, fun h => absurd rfl h, fun h => absurd rfl h, fun _ => ?_⟩
    obtain heq | ⟨hlt, heq⟩ := fpDiv_zero d hb0
    · rw [heq]
      exact .inl (fpOrdinary_trueZero_gives rfl)
    · rw [heq]
      exact .inr ⟨hlt, fpUnderflow_false_faultsWith⟩
  case neg =>
    refine ⟨fun hlarge => ?_, fun _ hlarge hexp => ?_, fun _ hexp => ?_, fun h => absurd h ha0⟩
    · rw [fpDiv_overflow d ha0 hb0 hlarge]
      exact fpDivOverflow_faultsWith d _
    · have hfa := le_fpFrac_of_normalised ha ha0
      have hfb := le_fpFrac_of_normalised hb hb0
      obtain ⟨e, n, he, hlo, hhi, hn, heq⟩ := fpDiv_cases d hfa hfb hlarge hexp
      rw [heq]
      refine (fpPack_gives (d.bit 0) _ (d.bit 5) he (by omega) hlo (by omega) fun _ => hhi).mono
        (fun r hr => hr.nearQuotient hn) fun cc hcc => floatFlags_congr ?_ hcc
      rw [fpScaled_mul, sign_signed_of_pos _ one_pos, sign_signed_of_pos _ (by positivity)]
    · rw [fpDiv_underflow d ha0 hexp]
      exact fpUnderflow_false_faultsWith

end Quotient

end Sys2Proof.Machine
end

section
/-! The floating-point instructions (46_floating_point.md R305 to R333): each comes to the shared ending of its outcome
once its fields, its operand and, for arithmetic and compare, the normalisation of its operands are checked. -/

namespace Sys2Proof.Machine

variable {s : State} {len : Word} {r1 r2 x2 : Nibble} {a2 : Word} {b : Full}

/-! ### The shared forms -/

theorem floatArith_pos {f : FpDraw → Full → Full → FpOutcome} (ha : normalised (s.fpReg r1) = true)
    (hb : normalised b = true) :
    floatArith f len r1 b s = .next (finishFloat len r1 (f s.fpDraw (s.fpReg r1) b) s) := requireNorm_pos ha hb

/-- The register forms of the arithmetic instructions, with the operation of each (R308, R310, R314, R316). -/
theorem exec_eq_floatArith_short (h1 : isEven r1) (h2 : isEven r2) :
    ∀ p ∈ [(Instr.aer r1 r2, fpAdd), (.ser r1 r2, fpSub), (.mer r1 r2, fpMul), (.der r1 r2, fpDiv)],
      exec p.1 s = floatArith p.2 len2 r1 (s.fpReg r2) s :=
  have checked {o : Out} : require (evenReg r1 && evenReg r2) .registerField o = o :=
    require_pos (evenReg_and_of_isEven h1 h2)
  List.forall_iff_forall_mem.1 ⟨checked, checked, checked, checked⟩

/-- The memory forms of the arithmetic instructions, with the operation of each (R309, R311, R315, R317). -/
theorem exec_eq_floatArith_long (h1 : isEven r1) (h : s.fullOk s.psw.obank (s.ea x2 a2)) :
    ∀ p ∈ [(Instr.ae r1 x2 a2, fpAdd), (.se r1 x2 a2, fpSub), (.me r1 x2 a2, fpMul), (.de r1 x2 a2, fpDiv)],
      exec p.1 s = floatArith p.2 len4 r1 (s.fullAt s.psw.obank (s.ea x2 a2)) s :=
  List.forall_iff_forall_mem.1 ⟨requireEven_operandFull_pos h1 h, requireEven_operandFull_pos h1 h,
    requireEven_operandFull_pos h1 h, requireEven_operandFull_pos h1 h⟩

theorem exec_ler (h1 : isEven r1) (h2 : isEven r2) :
    exec (.ler r1 r2) s = .next (finishFloat len2 r1 (fpLoad s.fpDraw (s.fpReg r2)) s) :=
  require_pos (evenReg_and_of_isEven h1 h2)

theorem exec_le (h1 : isEven r1) (h : s.fullOk s.psw.obank (s.ea x2 a2)) :
    exec (.le r1 x2 a2) s =
      .next (finishFloat len4 r1 (fpLoad s.fpDraw (s.fullAt s.psw.obank (s.ea x2 a2))) s) :=
  requireEven_operandFull_pos h1 h

theorem exec_cer (h1 : isEven r1) (h2 : isEven r2) : exec (.cer r1 r2) s = floatCompare len2 r1 (s.fpReg r2) s :=
  require_pos (evenReg_and_of_isEven h1 h2)

theorem exec_ce (h1 : isEven r1) (h : s.fullOk s.psw.obank (s.ea x2 a2)) :
    exec (.ce r1 x2 a2) s = floatCompare len4 r1 (s.fullAt s.psw.obank (s.ea x2 a2)) s :=
  requireEven_operandFull_pos h1 h

/-! ### The 48-bit codes -/

/-- Settles O44: each of the thirteen codes is `State.advance`, of 2 bytes or of 4. -/
theorem noOperations : Obligations.NoOperations := by
  intro s r1 r2 a2
  have advances : ∀ (len : Word) (i : Instr), exec i s = .next (s.advance len) →
      ∃ t, exec i s = .next t ∧ s.lcOnly t (s.psw.lc + len) ∧ s.Keeps t [] nowhere := fun len i heq =>
    ⟨_, heq, State.lcOnly_advance rfl len, (State.Keeps.refl s [] nowhere).of_eq rfl rfl rfl⟩
  exact ⟨List.forall_iff_forall_mem.1 ⟨advances 2 _ rfl, advances 2 _ rfl, advances 2 _ rfl, advances 2 _ rfl,
      advances 2 _ rfl, advances 2 _ rfl⟩,
    List.forall_iff_forall_mem.1 ⟨advances 4 _ rfl, advances 4 _ rfl, advances 4 _ rfl, advances 4 _ rfl,
      advances 4 _ rfl, advances 4 _ rfl, advances 4 _ rfl⟩⟩

/-! ### Load -/

/-- Settles O22: what is loaded is Norm of the word's own fields, which keeps the value or underflows (R302). -/
theorem floatLoad : Obligations.FloatLoad := by
  intro s r1 hm h1 loads
  have loadsWord {i : Instr} {len : Word} {w : Full}
      (heq : exec i s = .next (finishFloat len r1 (fpLoad s.fpDraw w) s)) : loads i len w :=
    ⟨fun h => ⟨_, heq, (fpNorm_gives _ _ (fpExp_lt w) (fpFrac_lt w) h).putsFloat hm⟩,
      fun h => ⟨_, heq, (fpNorm_faultsWith _ (fpFrac_lt w) h).floatFaults hm⟩⟩
  exact ⟨fun r2 h2 => loadsWord (exec_ler h1 h2), fun x2 a2 hok => loadsWord (exec_le h1 hok)⟩

/-! ### Arithmetic -/

/-- Settles O23: the subtraction is the addition of the word with its sign inverted (R310), and the outcome of an
addition is exact or near. -/
theorem floatAddSubtract : Obligations.FloatAddSubtract := by
  intro s r1 hm h1 a gives both
  have givesSum {i : Instr} {len : Word} {b : Full}
      (heq : exec i s = .next (finishFloat len r1 (fpAdd s.fpDraw a b) s)) : gives i len b := by
    refine ⟨_, heq, fun hloses => ?exact, fun hloses => ?near⟩
    case exact =>
      obtain ⟨hfits, hlarge, hsmall⟩ := fpAdd_isExact s.fpDraw hloses
      exact ⟨fun hl hs => (hfits hl hs).putsFloat hm, fun hl => (hlarge hl).floatFaults hm,
        fun hs => (hsmall hs).floatFaults hm⟩
    case near =>
      obtain ⟨r, hnorm, hclose, hside, hr⟩ | ⟨hlarge, ho⟩ | ⟨hne, hsmall, ho⟩ := fpAdd_isNear s.fpDraw hloses
      · exact .inl ⟨r, hnorm, hclose, hside, hr.putsFloat hm⟩
      · exact .inr (.inl ⟨hlarge, ho.floatFaults hm⟩)
      · exact .inr (.inr ⟨hne, hsmall, ho.floatFaults hm⟩)
  have givesBoth {plus minus : Instr} {len : Word} {b : Full} (hplus : exec plus s = floatArith fpAdd len r1 b s)
      (hminus : exec minus s = floatArith fpSub len r1 b s) : both plus minus len b := fun ha hb =>
    ⟨givesSum (hplus.trans (floatArith_pos ha hb)), givesSum (hminus.trans (floatArith_pos ha hb))⟩
  exact ⟨fun r2 h2 => givesBoth (exec_eq_floatArith_short h1 h2 (.aer r1 r2, fpAdd) (by simp))
      (exec_eq_floatArith_short h1 h2 (.ser r1 r2, fpSub) (by simp)),
    fun x2 a2 hok => givesBoth (exec_eq_floatArith_long h1 hok (.ae r1 x2 a2, fpAdd) (by simp))
      (exec_eq_floatArith_long h1 hok (.se r1 x2 a2, fpSub) (by simp))⟩

/-- Settles O25: the product of two normalised words, by their exponent fields and the exact product (R314). -/
theorem floatMultiply : Obligations.FloatMultiply := by
  intro s r1 hm h1 a product
  have multiplies {i : Instr} {len : Word} {b : Full} (heq : exec i s = floatArith fpMul len r1 b s) :
      product i len b := by
    intro ha hb
    obtain ⟨hlarge, hfits, hsmall, hzero⟩ := fpMul_isProduct s.fpDraw ha hb
    exact ⟨_, heq.trans (floatArith_pos ha hb), fun h => (hlarge h).floatFaults hm,
      fun hx hexp hsize => (hfits hx hexp hsize).putsFloat hm, fun hx hsize => (hsmall hx hsize).floatFaults hm,
      fun hx => (hzero hx).imp (·.putsFloat hm) fun ⟨hexp, ho⟩ => ⟨hexp, ho.floatFaults hm⟩⟩
  exact ⟨fun r2 h2 => multiplies (exec_eq_floatArith_short h1 h2 (.mer r1 r2, fpMul) (by simp)),
    fun x2 a2 hok => multiplies (exec_eq_floatArith_long h1 hok (.me r1 x2 a2, fpMul) (by simp))⟩

/-- Settles O26: the quotient of two normalised words, by their exponent fields and fractions (R316). -/
theorem floatDivide : Obligations.FloatDivide := by
  intro s r1 hm h1 a quotient
  have divides {i : Instr} {len : Word} {b : Full} (heq : exec i s = floatArith fpDiv len r1 b s) :
      quotient i len b := by
    intro ha hb hb0
    obtain ⟨hlarge, hfits, hsmall, hzero⟩ := fpDiv_isQuotient s.fpDraw ha hb hb0
    exact ⟨_, heq.trans (floatArith_pos ha hb), fun h => (hlarge h).floatFaults hm,
      fun hx hl hexp => (hfits hx hl hexp).putsFloat hm, fun hx hexp => (hsmall hx hexp).floatFaults hm,
      fun hx => (hzero hx).imp (·.putsFloat hm) fun ⟨hexp, ho⟩ => ⟨hexp, ho.floatFaults hm⟩⟩
  exact ⟨fun r2 h2 => divides (exec_eq_floatArith_short h1 h2 (.der r1 r2, fpDiv) (by simp)),
    fun x2 a2 hok => divides (exec_eq_floatArith_long h1 hok (.de r1 x2 a2, fpDiv) (by simp))⟩

/-- Settles O27: whatever the outcome, with PSW bit 5 reset the ending is the next instruction; RequireNorm alone
refuses (R303, R304). -/
theorem floatCompletes : Obligations.FloatCompletes := by
  intro s r1 h1 completes decides
  have ends {i : Instr} {len : Word} {o : FpOutcome} (heq : exec i s = .next (finishFloat len r1 o s)) :
      completes i len := fun hen => ⟨_, heq, finishFloat_completes s len r1 o hen⟩
  have arith {i : Instr} {f : FpDraw → Full → Full → FpOutcome} {len : Word} {b : Full}
      (heq : exec i s = floatArith f len r1 b s) : decides i len b :=
    ⟨fun ha hb => ends (heq.trans (floatArith_pos ha hb)), fun h => heq.trans (requireNorm_neg h)⟩
  refine ⟨fun r2 h2 => ⟨ends (exec_ler h1 h2), ?short⟩, fun x2 a2 hok => ⟨ends (exec_le h1 hok), ?long⟩⟩
  case short =>
    obtain ⟨hadd, hsub, hmul, hdiv⟩ := List.forall_iff_forall_mem.2 (exec_eq_floatArith_short (s := s) h1 h2)
    exact List.forall_iff_forall_mem.1 ⟨arith hadd, arith hsub, arith hmul, arith hdiv⟩
  case long =>
    obtain ⟨hadd, hsub, hmul, hdiv⟩ := List.forall_iff_forall_mem.2 (exec_eq_floatArith_long (s := s) h1 hok)
    exact List.forall_iff_forall_mem.1 ⟨arith hadd, arith hsub, arith hmul, arith hdiv⟩

/-- The end of a division by zero: no register written, the Condition Code 1100, and the fault where PSW bit 5 is set
(R316, 60_exceptions.md R464). -/
theorem finishFloat_zeroDivisor (hm : Memory.wf s.mem = true) (len : Word) (r : Nibble) :
    (s.psw.fpfEn = true →
        s.swapped (finishFloat len r fpZeroDivisor s) { s.psw with cc := fpZeroDivisor.cc }.status (s.psw.lc + len)
          0x0028 0x002C) ∧
      (s.psw.fpfEn = false → s.setsCc (finishFloat len r fpZeroDivisor s) len (· = fpZeroDivisor.cc)) := by
  refine ⟨fun hen => ?enabled, fun hdis => ?disabled⟩
  case enabled =>
    have hraise : finishFloat len r fpZeroDivisor s =
        (s.setCc fpZeroDivisor.cc).drawn.exchange 0x0028 0x002C (s.psw.lc + len) := if_pos hen
    obtain ⟨hold, holdLc, hstatus, hlc, hkeeps⟩ := State.swapped_exchange (s := (s.setCc fpZeroDivisor.cc).drawn) hm
      0x0028 0x002C (s.psw.lc + len) (by decide)
    have hset : s.Keeps (s.setCc fpZeroDivisor.cc).drawn [] (span 0 0x0028 4) :=
      (State.Keeps.refl s _ _).of_eq rfl rfl rfl
    rw [hraise]
    exact ⟨hold, holdLc, hstatus, hlc, hset.trans hkeeps⟩
  case disabled =>
    have hnext : finishFloat len r fpZeroDivisor s = (s.setCc fpZeroDivisor.cc).drawn.advance len :=
      if_neg (Bool.eq_false_iff.1 hdis)
    rw [hnext]
    exact State.setsCc_drawn rfl

/-- Settles O28: the test for a zero divisor comes first in FpDiv (R316). -/
theorem floatDivideByZero : Obligations.FloatDivideByZero := by
  intro s r1 hm h1 cc faults ha
  have dividesByZero {i : Instr} {len : Word} {b : Full} (heq : exec i s = floatArith fpDiv len r1 b s) (hb : b = 0) :
      faults i len := by
    subst hb
    exact ⟨_, heq.trans (floatArith_pos ha rfl), finishFloat_zeroDivisor hm len r1⟩
  exact ⟨fun r2 h2 => dividesByZero (exec_eq_floatArith_short h1 h2 (.der r1 r2, fpDiv) (by simp)),
    fun x2 a2 hok => dividesByZero (exec_eq_floatArith_long h1 hok (.de r1 x2 a2, fpDiv) (by simp))⟩

end Sys2Proof.Machine

namespace Sys2Proof.Laws

open Machine

/-! ### The compare, under a name that the model's own operation has in the other namespace -/

/-- Settles O24: the flags are the order of the values, and RequireNorm refuses the other operands (R304). -/
theorem floatCompare : Obligations.FloatCompare := by
  intro s r1 h1 a compares
  have comparesWith {i : Instr} {len : Word} {b : Full} (heq : exec i s = Machine.floatCompare len r1 b s) :
      compares i len b :=
    ⟨fun ha hb => ⟨_, heq.trans (requireNorm_pos ha hb),
        State.setsCc_drawn ⟨decide_eq_true_iff, decide_eq_true_iff, decide_eq_true_iff⟩⟩,
      fun h => heq.trans (requireNorm_neg h)⟩
  exact ⟨fun r2 h2 => comparesWith (exec_cer h1 h2), fun x2 a2 hok => comparesWith (exec_ce h1 hok)⟩

end Sys2Proof.Laws
end

section
/-! System control (47_system_control.md R341 to R346): what a frame says of a halfword, what a loaded PSW leaves once
the queue is examined, the two entries that store the old PSW and take a Location Counter of their own, and with each
of these the instructions that end in it. -/

namespace Sys2Proof.Machine

variable {s t : State} {rs : List Nibble} {m : Bank → Word → Prop}

/-! ### Frames of a halfword and of a PSW replaced -/

/-- A halfword outside the set of bytes that may change reads as before. -/
theorem State.Keeps.halfAt (h : s.Keeps t rs m) {b : Bank} {a : Word} (h0 : ¬ m b a) (h1 : ¬ m b (a + 1)) :
    t.halfAt b a = s.halfAt b a := by
  rw [State.halfAt, State.halfAt, h.bytes b a h0, h.bytes b (a + 1) h1]

/-- An exchange reads only memory: it is one from every state that differs in the PSW alone. -/
theorem State.swapped.of_psw {p : Psw} {status lc old new : Word}
    (h : State.swapped { s with psw := p } t status lc old new) : s.swapped t status lc old new :=
  let ⟨hold, holdLc, hstatus, hlc, hkeeps⟩ := h
  have hpsw : s.Keeps { s with psw := p } [] (span 0 old 4) := (State.Keeps.refl s _ _).of_eq rfl rfl rfl
  ⟨hold, holdLc, hstatus, hlc, hpsw.trans hkeeps⟩

/-! ### A PSW loaded, then the examination of the queue -/

theorem State.queueNonEmpty_iff : s.queueNonEmpty = true ↔ s.queueWaits := by
  simp [State.queueNonEmpty, State.queueWaits, State.queueAddr]

/-- How LPSW and EPSR end: a status and a Location Counter are loaded, then the queue is examined where bit 6 of that
status asks for it, and Channel Termination stores what was just loaded (R341, R344). -/
theorem State.examineQueue_loadsPsw (hm : Memory.wf s.mem = true) (status lc : Word)
    (hq : status.getMsbD 6 = true → s.queueOk) :
    ∃ t, ((s.setStatus status).setLc lc).examineQueue = .next t ∧ s.loadsPsw t status lc := by
  let u := (s.setStatus status).setLc lc
  have hstatus : u.psw.status = status := Psw.status_withStatus s.psw status
  have hasks : (u.psw.ctEn && u.queueNonEmpty) = true ↔ status.getMsbD 6 = true ∧ s.queueWaits :=
    Bool.and_eq_true_iff.trans (and_congr_right fun _ => State.queueNonEmpty_iff)
  refine ⟨_, State.examineQueue_pos (s := u) hq, fun hbit hwaits => ?raised, fun hnot => ?quiet⟩
  case raised =>
    rw [if_pos (hasks.2 ⟨hbit, hwaits⟩)]
    have hswap := State.swapped_exchange (s := u) hm 0x0082 0x0086 lc (by decide)
    rw [hstatus] at hswap
    exact State.swapped.of_psw (p := u.psw) hswap
  case quiet =>
    rw [if_neg (mt hasks.1 hnot)]
    exact ⟨hstatus, rfl, (State.Keeps.refl s [] nowhere).of_eq rfl rfl rfl⟩

/-- The halfwords of a fullword of memory are the new status and the new Location Counter. -/
theorem State.loadPsw_fullAt (s : State) (b : Bank) (a : Word) :
    s.loadPsw (s.fullAt b a) = (s.setStatus (s.halfAt b a)).setLc (s.halfAt b (a + 2)) := by
  rw [State.loadPsw, State.fullAt, BitVec.extractLsb'_append_eq_left, BitVec.extractLsb'_append_eq_right]

/-- Settles O29: with R1 zero and the operand in memory, LPSW is the load and the examination that ends it. -/
theorem loadPsw : Obligations.LoadPsw := by
  intro s x2 a2 hm hprot hok hq
  have hexec : exec (.lpsw 0 x2 a2) s =
      ((s.setStatus (s.halfAt s.psw.obank (s.ea x2 a2))).setLc
        (s.halfAt s.psw.obank (s.ea x2 a2 + 2))).examineQueue := by
    rw [← State.loadPsw_fullAt]
    exact ((privileged_pos hprot).trans (require_pos rfl)).trans (State.operandFull_pos hok)
  rw [hexec]
  exact State.examineQueue_loadsPsw hm _ _ hq

/-! ### The PSW and registers exchanged -/

/-- Settles O30: EPOR and EPPR go on in every mode; EPSR writes R1 before it reads R2, then ends as LPSW does. -/
theorem exchangePsw : Obligations.ExchangePsw := by
  intro s r1 r2 hm
  refine ⟨⟨_, rfl, ?epor⟩, fun h14 => ⟨_, require_pos ((pairReg_iff r1).2 h14), ?eppr⟩, fun hprot => ?epsr⟩
  case epor =>
    exact ⟨State.reg_setReg_self .., rfl,
      (State.Keeps.setReg r1 s.psw.status (List.mem_singleton.2 rfl)).of_eq rfl rfl rfl⟩
  case eppr =>
    have hfirst : s.Keeps (s.setReg r1 s.psw.status) [r1, r1 + 1] nowhere := State.Keeps.setReg r1 _ (by simp)
    have hboth := hfirst.trans (State.Keeps.setReg (r1 + 1) (s.nextLc len2) (by simp))
    exact ⟨(State.reg_setReg_of_ne _ (nibble_ne_add r1 (by decide))).trans (State.reg_setReg_self ..),
      State.reg_setReg_self .., rfl, hboth.of_eq rfl rfl rfl⟩
  case epsr =>
    intro w hq
    have hread : (s.setReg r1 s.psw.status).reg r2 = w := State.reg_setReg ..
    obtain ⟨t, ht, hloads⟩ :=
      State.examineQueue_loadsPsw (s := s.setReg r1 s.psw.status) hm w (s.psw.lc + 2) hq
    refine ⟨t, s.setReg r1 s.psw.status, ?_, State.reg_setReg_self .., rfl,
      State.Keeps.setReg r1 _ (List.mem_singleton.2 rfl), hloads⟩
    rw [← ht, ← hread]
    exact privileged_pos hprot

/-! ### The Service Pointer -/

/-- The Immediate Interrupt entry is an exchange whose New PSW follows the Old PSW, but for the Location Counter, which
is the address after the new status itself (60_exceptions.md R470). -/
theorem State.immediateEntry_eq (s : State) (sp lc : Word) :
    s.immediateEntry sp lc = (s.exchange sp (sp + 4) lc).setLc (sp + 6) := rfl

/-- The Service Pointer of the device that bits 8:15 of a halfword name (20_memory.md R73). -/
theorem State.servicePointer_lowByte (s : State) (w : Word) :
    s.servicePointer (lowByte w) = s.halfAt 0 (0x00D0 + 2 * (w &&& 0x00FF)) := by
  rw [← byteWord_lowByte, State.servicePointer, BitVec.shiftLeft_eq_mul_twoPow, BitVec.mul_comm]
  rfl

/-- Settles O31: an even pointer enters the routine, whose old and new PSW do not overlap; an odd one is refused. -/
theorem simulateInterrupt : Obligations.SimulateInterrupt := by
  intro s x2 i2 hm hprot sp
  have hsp : s.servicePointer (lowByte (s.ea x2 i2)) = sp := s.servicePointer_lowByte _
  have hexec : exec (.sint 0 x2 i2) s = require (evenAddr sp) .channelService
      (s.guardHalves 0 3 sp (.next (s.immediateEntry sp (s.psw.lc + 4)))) := by
    rw [← hsp]
    exact (privileged_pos hprot).trans (require_pos rfl)
  refine ⟨fun hok => ⟨s.immediateEntry sp (s.psw.lc + 4), ?_, ?entered⟩, fun hodd => ?refused⟩
  · obtain ⟨⟨heven, -⟩, -⟩ := State.halvesOk_succ.1 hok
    rw [hexec, require_pos ((evenAddr_iff sp).2 heven), State.guardHalves_pos hok]
  case entered =>
    obtain ⟨hold, holdLc, hstatus, -, hkeeps⟩ :=
      State.swapped_exchange hm sp (sp + 4) (s.psw.lc + 4) (by simp)
    rw [State.immediateEntry_eq]
    exact ⟨hold, holdLc, hstatus, rfl, hkeeps.setLc _⟩
  case refused =>
    rw [hexec]
    exact require_neg (Bool.eq_false_iff.2 (mt (evenAddr_iff sp).1 hodd))

/-! ### The Supervisor Call -/

/-- The Supervisor Call procedure is the pointer stored, then an exchange between 96 and 9A, but for the Location
Counter, which comes from the table at 9C (R346). -/
theorem State.supervisorCall_eq (s : State) (kind : Nibble) (pointer next : Word) :
    s.supervisorCall kind pointer next =
      let u := (s.setHalf 0 0x0094 pointer).exchange 0x0096 0x009A next
      u.setLc (u.halfAt 0 (0x009C + 2 * kind.setWidth 16)) := by
  rw [← fpAddr_eq]; rfl

/-- The New PSW of a call and its table lie past the six bytes that the call stores. -/
theorem not_span_callArea {a : Word} (h : 0x009A ≤ a.toNat) (h' : a.toNat < 0x00BC) : ¬ span 0 0x0094 6 0 a := by
  rintro ⟨-, hlt⟩
  bv_omega

/-- What a Supervisor Call stores and loads, with the table entry as it was before the call (R346). -/
theorem State.supervisorCall_stores (hm : Memory.wf s.mem = true) (kind : Nibble) (pointer next : Word) :
    let t := s.supervisorCall kind pointer next
    t.halfAt 0 0x0094 = pointer ∧ t.halfAt 0 0x0096 = s.psw.status ∧ t.halfAt 0 0x0098 = next ∧
      t.psw.status = s.halfAt 0 0x009A ∧ t.psw.lc = s.halfAt 0 (0x009C + 2 * kind.setWidth 16) ∧
      s.Keeps t [] (span 0 0x0094 6) := by
  have hset : s.Keeps (s.setHalf 0 0x0094 pointer) [] (span 0 0x0094 6) :=
    (State.Keeps.storeHalf 0 0x0094 pointer).mono (fun _ h => h) fun _ _ ⟨hb, hlt⟩ => ⟨hb, hlt.trans (by decide)⟩
  obtain ⟨hold, holdLc, hstatus, -, hexchange⟩ :=
    State.swapped_exchange (State.wf_setHalf hm 0 0x0094 pointer) 0x0096 0x009A next (by decide)
  have hall : s.Keeps ((s.setHalf 0 0x0094 pointer).exchange 0x0096 0x009A next) [] (span 0 0x0094 6) :=
    hset.trans (hexchange.mono (fun _ h => h) fun _ a ⟨hb, hlt⟩ => ⟨hb, by bv_omega⟩)
  rw [State.supervisorCall_eq]
  -- From here on only what is known of the exchange matters; spelt out, the unifier would evaluate it.
  generalize (s.setHalf 0 0x0094 pointer).exchange 0x0096 0x009A next = v at *
  refine ⟨?stored, hold, holdLc, hstatus.trans ?newStatus, ?table, hall.setLc _⟩
  case stored =>
    exact (hexchange.halfAt (by unfold span; decide) (by unfold span; decide)).trans (State.halfAt_setHalf_self hm ..)
  case newStatus =>
    exact hset.halfAt (not_span_callArea (by decide) (by decide)) (not_span_callArea (by decide) (by decide))
  case table =>
    exact hall.halfAt (not_span_callArea (by bv_omega) (by bv_omega)) (not_span_callArea (by bv_omega) (by bv_omega))

/-- Settles O32: in every mode SVC is the Supervisor Call procedure. -/
theorem supervisorCall : Obligations.SupervisorCall := fun _ _ _ _ hm => ⟨_, rfl, State.supervisorCall_stores hm ..⟩

end Sys2Proof.Machine
end

section
/-! Input and output of one byte or halfword (48_io.md R360 to R379): status bytes, what an operation on the bus changes
but for the devices, what the two endings of a transfer leave, then the instructions. -/

namespace Sys2Proof.Machine

variable {s t u : State} {rs : List Nibble} {m : Bank → Word → Prop} {d : Byte} {op : BusOp} {len : Word}

/-! ### Status bytes -/

/-- The status bits are copied one by one (R361). -/
theorem statusCc_statusFlags (st : Byte) : statusFlags st (statusCc st) := by
  unfold statusFlags statusCc Cc.bits
  revert st
  decide

/-- Bits 0:3 and bit 5 of a time-out's status byte are fixed, whatever is drawn (R362). -/
theorem State.timeoutStatus_timeoutByte (s : State) : timeoutByte s.timeoutStatus := by
  unfold timeoutByte State.timeoutStatus
  refine ⟨?_, by simp [BitVec.getMsbD]⟩
  ext i hi
  interval_cases i <;> simp

/-! ### The acknowledge -/

theorem State.acknowledge_of_cons {q : Request} {rest : List Request} (h : s.requests = q :: rest) :
    s.acknowledge = ⟨byteWord q.device, q.status⟩ := by rw [State.acknowledge, h]

theorem State.acknowledge_of_nil (h : s.requests = []) : s.acknowledge = ⟨s.timeoutData, s.timeoutStatus⟩ := by
  rw [State.acknowledge, h]

/-- The status byte of an acknowledge: the first request's, or one of a time-out where none is held (R364, log 19). -/
theorem State.acknowledge_status (s : State) :
    (∀ q rest, s.requests = q :: rest → s.acknowledge.status = q.status) ∧
      (s.requests = [] → timeoutByte s.acknowledge.status) :=
  ⟨fun _ _ h => by rw [State.acknowledge_of_cons h],
    fun h => by rw [State.acknowledge_of_nil h]; exact s.timeoutStatus_timeoutByte⟩

/-- The halfword that an acknowledge gives for R1 is the first request's device number. -/
theorem State.acknowledge_device (q : Request) (rest : List Request) (h : s.requests = q :: rest) :
    s.acknowledge.device = q.device.setWidth 16 := by rw [State.acknowledge_of_cons h]; rfl

theorem State.Keeps.acknowledge (h : s.acknowledged.Keeps t rs m) :
    s.Keeps { t with requests := s.requests } rs m :=
  { h with requests := rfl }

/-- Settles O33: both forms spend the acknowledge; AIR writes R1 before R2, AI forms its address before R1 is
written. -/
theorem acknowledgeInterrupt : Obligations.AcknowledgeInterrupt := by
  intro s r1 hm hp
  obtain ⟨hheld, hnone⟩ := s.acknowledge_status
  have hcc := statusCc_statusFlags s.acknowledge.status
  refine ⟨fun r2 => ⟨_, _, privileged_pos hp, ⟨hcc, rfl, hheld, hnone⟩, State.reg_setReg_self .., ?air⟩,
    fun x2 a2 hok => ⟨_, _, (privileged_pos hp).trans (State.guardByte_pos hok), ⟨hcc, rfl, hheld, hnone⟩,
      State.byteAt_setByte_self hm .., ?ai⟩⟩
  case air =>
    have hregs : s.acknowledged.Keeps ((s.acknowledged.setReg r1 s.acknowledge.device).setReg r2
        (byteWord s.acknowledge.status)) [r1, r2] nowhere :=
      (State.Keeps.setReg r1 _ (by simp)).trans (State.Keeps.setReg r2 _ (by simp))
    refine ⟨fun q rest h hne => ?_, rfl, State.Keeps.acknowledge (hregs.of_eq rfl rfl rfl)⟩
    rw [← State.acknowledge_device q rest h]
    exact (State.reg_setReg_of_ne _ hne).trans (State.reg_setReg_self ..)
  case ai =>
    have hstored : s.acknowledged.Keeps ((s.acknowledged.setReg r1 s.acknowledge.device).setByte s.psw.obank
        (s.ea x2 a2) s.acknowledge.status) [r1] (span s.psw.obank (s.ea x2 a2) 1) :=
      (State.Keeps.setReg r1 _ (by simp)).trans (State.Keeps.storeByte ..)
    refine ⟨fun q rest h => ?_, rfl, State.Keeps.acknowledge (hstored.of_eq rfl rfl rfl)⟩
    rw [← State.acknowledge_device q rest h]
    exact State.reg_setReg_self s.acknowledged ..

/-! ### An operation on the bus -/

theorem State.operate_bus (s : State) (d : Byte) (op : BusOp) :
    (s.operate d op).bus = if (s.reply d).timeout then s.bus else op :: s.bus := rfl

/-- What changes after an operation changes from before it, but for the devices. -/
theorem State.Keeps.operate (h : (s.operate d op).Keeps t rs m) : s.Keeps (t.withDevicesOf s) rs m :=
  { h with requests := rfl, replies := rfl, bus := rfl }

/-- The frame of an instruction that ends with its Condition Code after an operation. -/
theorem State.Keeps.operate_end (h : (s.operate d op).Keeps u rs m) (cc : Cc) (len : Word) :
    s.Keeps (((u.setCc cc).advance len).withDevicesOf s) rs m :=
  State.Keeps.operate (h.of_eq rfl rfl rfl)

theorem State.sensed_of_answer (h : (s.reply d).timeout = false) : s.sensed d = (s.reply d).status := by
  rw [State.sensed, h]; rfl

theorem State.sensed_of_timeout (h : (s.reply d).timeout = true) : timeoutByte (s.sensed d) := by
  rw [State.sensed, h]
  exact s.timeoutStatus_timeoutByte

/-- A sense delivers the device's status byte and is recorded, unless it times out (R362, R366). -/
theorem State.sensed_cases (s : State) (d : Byte) :
    ((s.reply d).timeout = false → s.sensed d = (s.reply d).status ∧ (s.operate d op).bus = op :: s.bus) ∧
      ((s.reply d).timeout = true → timeoutByte (s.sensed d) ∧ (s.operate d op).bus = s.bus) :=
  ⟨fun h => ⟨State.sensed_of_answer h, by rw [State.operate_bus, h]; rfl⟩,
    fun h => ⟨State.sensed_of_timeout h, by rw [State.operate_bus, h]; rfl⟩⟩

/-- Settles O34: the status byte sensed goes to its place, and its low bits to the Condition Code. -/
theorem senseStatus : Obligations.SenseStatus := by
  intro s r1 hm hp
  rw [← s.device_eq r1]
  have hcc := statusCc_statusFlags (s.sensed (s.device r1))
  have hsensed := s.sensed_cases (s.device r1) (op := .sense (s.device r1))
  refine ⟨fun r2 => ⟨_, _, privileged_pos hp, ⟨hcc, rfl, hsensed⟩, State.reg_setReg_self .., rfl, ?ssr⟩,
    fun x2 a2 hok => ⟨_, _, (privileged_pos hp).trans (State.guardByte_pos hok), ⟨hcc, rfl, hsensed⟩,
      State.byteAt_setByte_self hm .., rfl, ?ss⟩⟩
  case ssr => exact (State.Keeps.setReg r2 _ (List.mem_singleton.2 rfl)).operate_end ..
  case ss => exact (State.Keeps.storeByte ..).operate_end ..

/-! ### Transfers of one byte or halfword -/

/-- One operation has been tried: V is as given, the bus records it unless it timed out, then the next instruction
(R362). -/
def State.performed (s t : State) (d : Byte) (len : Word) (op : BusOp) (v : Bool) : Prop :=
  t.psw.cc.v = v ∧ t.requests = s.requests ∧ t.bus = (if (s.reply d).timeout then s.bus else op :: s.bus) ∧
    s.ccAndLc t (s.psw.lc + len)

/-- What is left after an operation ends with V set or reset and the next instruction. -/
theorem State.performed_end (h : (s.operate d op).Keeps u rs m) (hpsw : u.psw = s.psw) (len : Word) (v : Bool) :
    s.performed ((u.setCc (s.onlyV v)).advance len) d len op v ∧
      s.Keeps (((u.setCc (s.onlyV v)).advance len).withDevicesOf s) rs m := by
  refine ⟨⟨rfl, h.requests, h.bus, ?_⟩, h.operate_end ..⟩
  rw [State.ccAndLc, ← hpsw]
  rfl

/-- A command or data sent: one operation, and nothing else changes (R368, R372, R378). -/
theorem sent_of_next {i : Instr} {v : Bool}
    (h : exec i s = .next (((s.operate d op).setCc (s.onlyV v)).advance len)) :
    ∃ t, exec i s = .next t ∧ s.performed t d len op v ∧ s.Keeps (t.withDevicesOf s) [] nowhere :=
  ⟨_, h, State.performed_end (State.Keeps.refl _ _ _) rfl len v⟩

/-- A read that times out, where the parameter says that nothing is written (93_implementation_defined.md U15, log
49). -/
def State.leavesUnwritten (s : State) (d : Byte) : Prop := (s.reply d).timeout = true ∧ s.params.timeoutDraws = false

/-- A read of one byte or halfword, whose data `write` stores where it may store: V tells the time-out, an answer is
stored, and a time-out changes at most what an answer does, or nothing. -/
theorem inputData_reads {i : Instr} {put : Word → State → Out} {write : Word → State → State} {data : Word}
    {gets : State → Prop} (hexec : exec i s = inputData len d op data put s)
    (hput : ¬ s.leavesUnwritten d → ∀ v, put v (s.operate d op) = .next (write v (s.operate d op)))
    (hpsw : ∀ v, (write v (s.operate d op)).psw = s.psw)
    (hkeeps : ∀ v, (s.operate d op).Keeps (write v (s.operate d op)) rs m)
    (hgets : ∀ cc, gets (((write data (s.operate d op)).setCc cc).advance len)) :
    ∃ t, exec i s = .next t ∧ s.performed t d len op (s.reply d).timeout ∧
      ((s.reply d).timeout = false → gets t) ∧
      (s.leavesUnwritten d → s.Keeps (t.withDevicesOf s) [] nowhere) ∧ s.Keeps (t.withDevicesOf s) rs m := by
  rw [hexec]
  by_cases hu : s.leavesUnwritten d
  case pos =>
    obtain ⟨ht, hdraws⟩ := id hu
    have hnext := inputData_next (len := len) (data := data) (put := put).2
      ⟨s.operate d op, rfl, by simp [ht], by simp [hdraws], fun _ _ => rfl⟩
    have hnothing (rs : List Nibble) (m : Bank → Word → Prop) :=
      State.performed_end (State.Keeps.refl (s.operate d op) rs m) rfl len (s.reply d).timeout
    exact ⟨_, hnext, (hnothing [] nowhere).1, by simp [ht], fun _ => (hnothing ..).2, (hnothing ..).2⟩
  case neg =>
    obtain ⟨w, hw, hdraw⟩ : ∃ w, ((s.reply d).timeout = false → data = w) ∧
        ((s.reply d).timeout = true → s.timeoutData = w) := by
      cases (s.reply d).timeout <;> simp
    have hnext := inputData_next (len := len).2 ⟨_, rfl, fun ht => (congrArg (put · _) (hw ht)).trans (hput hu w),
      fun ht _ => (congrArg (put · _) (hdraw ht)).trans (hput hu w), fun ht hd => absurd ⟨ht, hd⟩ hu⟩
    obtain ⟨hdone, hkept⟩ := State.performed_end (hkeeps w) (hpsw w) len (s.reply d).timeout
    exact ⟨_, hnext, hdone, fun ht => hw ht ▸ hgets _, fun h => absurd h hu, hkept⟩

/-- Settles O35: the operation is tried in every form, and its ending is that of a command, of data sent or of a
read. -/
theorem singleTransfers : Obligations.SingleTransfers := by
  intro s r1 hm hp
  simp only [← lowByte_eq_setWidth, ← byteWord_lowByte]
  refine ⟨fun r2 => ⟨?ocr, ?wdr, ?whr, ?rdr, ?rhr⟩, fun x2 a2 => ⟨fun hok => ⟨?oc, ?wd⟩, fun hok => ?rd, fun hok => ?wh,
    fun hok => ?rh⟩⟩
  case ocr | wdr | whr => exact sent_of_next (privileged_pos hp)
  case oc | wd => exact sent_of_next ((privileged_pos hp).trans (State.operandByte_pos hok))
  case wh => exact sent_of_next ((privileged_pos hp).trans (State.operandHalf_pos hok))
  case rdr | rhr =>
    exact inputData_reads (privileged_pos hp) (write := fun v t => t.setReg r2 v) (fun _ _ => rfl) (fun _ => rfl)
      (fun v => State.Keeps.setReg r2 v (List.mem_singleton.2 rfl)) fun _ => State.reg_setReg_self ..
  case rd =>
    exact inputData_reads (privileged_pos hp) (write := fun v t => t.setByte s.psw.obank (s.ea x2 a2) (lowByte v))
      (fun hu _ => State.writeByte_pos _ (hok.resolve_right hu)) (fun _ => rfl) (fun _ => State.Keeps.storeByte ..)
      fun _ => State.byteAt_setByte_self hm ..
  case rh =>
    have heven : isEven (s.ea x2 a2) := hok.elim (fun h => h.1) fun h => h.1
    exact inputData_reads ((privileged_pos hp).trans (require_pos ((evenAddr_iff _).2 heven)))
      (write := fun v t => t.setHalf s.psw.obank (s.ea x2 a2) v)
      (fun hu _ => State.writeHalf_pos _ (hok.resolve_right fun h => hu h.2)) (fun _ => rfl)
      (fun _ => State.Keeps.storeHalf ..) fun _ => State.halfAt_setHalf_self hm ..

end Sys2Proof.Machine
end

section
/-! Block transfers and Autoload (48_io.md R374, R380 to R384): the answers of a device one after another, then one
block in either direction as a function of the state, what that function leaves, and the five instructions, each of
which is that function where its limits are memory. -/

namespace Sys2Proof.Machine

variable {s t u : State} {rs : List Nibble} {m : Bank → Word → Prop} {b : Bank} {d : Byte} {op : BusOp}

/-! ### The answers to come -/

/-- The next answer of a device is the first of those to come. -/
theorem State.reply_of_answers {r : Reply} {l : List Reply} (h : s.answers d = r :: l) : s.reply d = r := by
  have hfind : (s.replies.find? fun r => r.device == d) = some r := by
    rw [← List.head?_filter]
    exact congrArg List.head? h
  rw [State.reply, hfind]

theorem filter_eraseP {α : Type} (p : α → Bool) (l : List α) : (l.eraseP p).filter p = (l.filter p).tail := by
  induction l with
  | nil => rfl
  | cons a l ih => cases ha : p a <;> simp [ha, ih]

/-- An operation spends the first answer of its device. -/
theorem State.answers_operate (s : State) (d : Byte) (op : BusOp) : (s.operate d op).answers d = (s.answers d).tail :=
  filter_eraseP _ _

theorem stops_iff (r : Reply) : (r.timeout || badStatus r.status) = true ↔ ¬ goodTransfer r := by
  unfold goodTransfer badStatus
  cases r.timeout <;> simp

/-! ### Frames but for the devices -/

theorem State.Keeps.trans_devices (h : s.Keeps (u.withDevicesOf s) rs m) (h' : u.Keeps (t.withDevicesOf u) rs m) :
    s.Keeps (t.withDevicesOf s) rs m :=
  h.trans { h' with requests := rfl, replies := rfl, bus := rfl }

/-! ### A block in either direction -/

/-- The operation of one byte: a read, or the byte `v` sent. -/
def blockOp (reads : Bool) (d v : Byte) : BusOp := if reads then .readByte d else .writeByte d v

/-- The Condition Code of a transfer that ends its block abnormally (R380). -/
def State.stopCc (s : State) (r : Reply) : Cc := if r.timeout then s.timeoutCc else statusCc r.status

/-- The state after a byte has been moved well: one operation, and a byte read is stored. -/
def State.moved (s : State) (reads : Bool) (b : Bank) (d : Byte) (n : Word) : State :=
  let t := s.operate d (blockOp reads d (s.byteAt b n))
  if reads then t.setByte b n (lowByte (s.reply d).data) else t

/-- A block of `k` bytes of bank `b` from address `n` on, read from a device or sent to it. -/
def moveBlock (reads : Bool) (b : Bank) (d : Byte) : Nat → Word → State → State
  | 0, _, s => s.setCc (ccRow false false false false)
  | k + 1, n, s =>
    if (s.reply d).timeout || badStatus (s.reply d).status then
      (s.operate d (blockOp reads d (s.byteAt b n))).setCc (s.stopCc (s.reply d))
    else moveBlock reads b d k (n + 1) (s.moved reads b d n)

theorem moveBlock_succ_of_good {reads : Bool} {k : Nat} {n : Word} (h : goodTransfer (s.reply d)) :
    moveBlock reads b d (k + 1) n s = moveBlock reads b d k (n + 1) (s.moved reads b d n) :=
  if_neg fun hstops => (stops_iff _).1 hstops h

theorem moveBlock_succ_of_not_good {reads : Bool} {k : Nat} {n : Word} (h : ¬ goodTransfer (s.reply d)) :
    moveBlock reads b d (k + 1) n s =
      (s.operate d (blockOp reads d (s.byteAt b n))).setCc (s.stopCc (s.reply d)) :=
  if_pos ((stops_iff _).2 h)

/-! ### The model's recursions are the block -/

theorem add_ofNat_succ (n : Word) (j : Nat) : n + BitVec.ofNat 16 (j + 1) = n + 1 + BitVec.ofNat 16 j := by
  rw [Nat.add_comm, BitVec.ofNat_add, BitVec.add_assoc]
  rfl

theorem State.bytesOk_succ {k : Nat} {n : Word} (h : s.bytesOk b (k + 1) n) : s.byteOk b n ∧ s.bytesOk b k (n + 1) := by
  refine ⟨by simpa using h 0 k.succ_pos, fun j hj => ?_⟩
  rw [← add_ofNat_succ]
  exact h (j + 1) (Nat.succ_lt_succ hj)

theorem readBlock_eq : ∀ {k : Nat} {n : Word} {s : State}, s.bytesOk s.psw.obank k n →
    readBlock d k n s = .next (moveBlock true s.psw.obank d k n s)
  | 0, _, _, _ => rfl
  | k + 1, n, s, h => by
    obtain ⟨hfirst, hrest⟩ := State.bytesOk_succ h
    have hread := readBlock_eq (s := s.moved true s.psw.obank d n) hrest
    simp only [readBlock, moveBlock, State.stopCc]
    cases (s.reply d).timeout <;> cases badStatus (s.reply d).status
    case false.false => exact (State.guardByte_pos hfirst).trans hread
    all_goals rfl

theorem writeBlock_eq : ∀ {k : Nat} {n : Word} {s : State}, s.bytesOk s.psw.obank k n →
    writeBlock d k n s = .next (moveBlock false s.psw.obank d k n s)
  | 0, _, _, _ => rfl
  | k + 1, n, s, h => by
    obtain ⟨hfirst, hrest⟩ := State.bytesOk_succ h
    have hwrite := writeBlock_eq (s := s.moved false s.psw.obank d n) hrest
    simp only [writeBlock, moveBlock, State.stopCc, State.guardByte_pos hfirst]
    cases (s.reply d).timeout <;> cases badStatus (s.reply d).status
    case false.false => exact hwrite
    all_goals rfl

theorem autoload_eq : ∀ {k : Nat} {n : Word} {s : State}, s.bytesOk 0 (k + 1) n →
    autoload d k n s = .next (moveBlock true 0 d (k + 1) n s)
  | k, n, s, h => by
    obtain ⟨hfirst, hrest⟩ := State.bytesOk_succ h
    rw [autoload.eq_def, moveBlock]
    simp only [State.stopCc]
    cases (s.reply d).timeout <;> cases badStatus (s.reply d).status
    case false.false =>
      rw [State.guardByte_pos hfirst]
      cases k with
      | zero => rfl
      | succ k => exact autoload_eq (s := s.moved true 0 d n) hrest
    all_goals rfl

theorem blockLength_eq (start stop : Word) : blockLength start stop = stop.toNat + 1 - start.toNat := by
  unfold blockLength
  split <;> omega

/-! ### One byte moved -/

section Moved

variable (s : State) (reads : Bool) (b : Bank) (d : Byte) (n : Word)

theorem State.moved_psw : (s.moved reads b d n).psw = s.psw := by cases reads <;> rfl

theorem State.moved_requests : (s.moved reads b d n).requests = s.requests := by cases reads <;> rfl

theorem State.answers_moved : (s.moved reads b d n).answers d = (s.answers d).tail := by
  have hspent := s.answers_operate d (blockOp reads d (s.byteAt b n))
  cases reads <;> exact hspent

theorem State.moved_bus (h : goodTransfer (s.reply d)) :
    (s.moved reads b d n).bus = blockOp reads d (s.byteAt b n) :: s.bus := by
  obtain ⟨htimeout, -⟩ := h
  have hbus (op : BusOp) : (s.operate d op).bus = op :: s.bus := by rw [State.operate_bus, htimeout]; rfl
  cases reads <;> exact hbus _

theorem State.wf_moved (hm : Memory.wf s.mem = true) : Memory.wf (s.moved reads b d n).mem = true := by
  cases reads
  · exact hm
  · exact State.wf_setByte (s := s.operate d _) hm ..

/-- Bytes are sent from memory as it was. -/
theorem State.blockOp_moved (a : Word) :
    blockOp reads d ((s.moved reads b d n).byteAt b a) = blockOp reads d (s.byteAt b a) := by cases reads <;> rfl

end Moved

/-- The bytes that a block may store: `k` from address `n` on where it is read. -/
def blockBytes (reads : Bool) (b : Bank) (n : Word) (k : Nat) : Bank → Word → Prop :=
  if reads then span b n k else nowhere

theorem span_of_succ {n : Word} {k : Nat} {b' : Bank} {a : Word} (h : span b (n + 1) k b' a) :
    span b n (k + 1) b' a := by
  obtain ⟨hb, hlt⟩ := h
  exact ⟨hb, by bv_omega⟩

theorem State.moved_keeps (s : State) (reads : Bool) (b : Bank) (d : Byte) (n : Word) (k : Nat) :
    s.Keeps ((s.moved reads b d n).withDevicesOf s) [] (blockBytes reads b n (k + 1)) := by
  cases reads
  · exact (State.Keeps.refl (s.operate d _) [] nowhere).operate
  · exact (State.Keeps.setByte b n _ (span_self b n k.succ_pos)).operate

/-- What a block's rest leaves alone, the block leaves alone once its first byte is moved. -/
theorem State.Keeps.of_moved {reads : Bool} {n : Word} {k : Nat}
    (h : (s.moved reads b d n).Keeps (t.withDevicesOf (s.moved reads b d n)) [] (blockBytes reads b (n + 1) k)) :
    s.Keeps (t.withDevicesOf s) [] (blockBytes reads b n (k + 1)) := by
  refine (s.moved_keeps reads b d n k).trans_devices (h.mono (fun _ hr => hr) fun b' a ha => ?_)
  cases reads
  · exact ha
  · exact span_of_succ ha

/-! ### What every block leaves, whatever the answers -/

theorem moveBlock_keeps (reads : Bool) (b : Bank) (d : Byte) : ∀ (k : Nat) (n : Word) (s : State),
    s.Keeps ((moveBlock reads b d k n s).withDevicesOf s) [] (blockBytes reads b n k)
  | 0, _, s => (State.Keeps.refl s _ _).of_eq rfl rfl rfl
  | k + 1, n, s => by
    by_cases h : goodTransfer (s.reply d)
    · rw [moveBlock_succ_of_good h]
      exact (moveBlock_keeps reads b d k (n + 1) _).of_moved
    · rw [moveBlock_succ_of_not_good h]
      exact State.Keeps.operate ((State.Keeps.refl _ _ _).of_eq rfl rfl rfl)

/-- Of the PSW a block changes the Condition Code alone; it changes no request. -/
theorem moveBlock_psw (reads : Bool) (b : Bank) (d : Byte) : ∀ (k : Nat) (n : Word) (s : State),
    s.ccAndLc (moveBlock reads b d k n s) s.psw.lc ∧ (moveBlock reads b d k n s).requests = s.requests
  | 0, _, _ => ⟨rfl, rfl⟩
  | k + 1, n, s => by
    by_cases h : goodTransfer (s.reply d)
    · rw [moveBlock_succ_of_good h]
      have hrest := moveBlock_psw reads b d k (n + 1) (s.moved reads b d n)
      rwa [State.ccAndLc, State.moved_psw, State.moved_requests] at hrest
    · rw [moveBlock_succ_of_not_good h]
      exact ⟨rfl, rfl⟩

theorem State.ccAndLc.advance (h : s.ccAndLc t s.psw.lc) (len : Word) : s.ccAndLc (t.advance len) (s.psw.lc + len) := by
  unfold State.ccAndLc at h ⊢
  show t.psw.withLc (t.psw.lc + len) = _
  rw [h]
  rfl

/-! ### How a block ends -/

/-- Where the answers end a block of `k` bytes: `done` are as many, or the answer after them is not a good one. -/
def blockStops (k : Nat) (done rest : List Reply) : Option Reply → Prop
  | none => done.length = k
  | some r => done.length < k ∧ rest.head? = some r ∧ ¬ goodTransfer r

theorem blockStops.length_le {k : Nat} {done rest : List Reply} {last : Option Reply}
    (h : blockStops k done rest last) : done.length ≤ k := by
  cases last with
  | none => exact h.le
  | some r => exact h.1.le

theorem blockStops_cons {k : Nat} {r : Reply} {done rest : List Reply} {last : Option Reply}
    (h : blockStops k (r :: done) rest last) : ∃ j, k = j + 1 ∧ blockStops j done rest last := by
  cases last with
  | none => exact ⟨done.length, h.symm, rfl⟩
  | some q =>
    obtain ⟨hlt, hbad⟩ := h
    obtain ⟨j, rfl⟩ := Nat.exists_eq_succ_of_ne_zero (Nat.ne_zero_of_lt hlt)
    exact ⟨j, rfl, Nat.lt_of_succ_lt_succ hlt, hbad⟩

theorem State.stopCc_blockFlags (s : State) (r : Reply) : blockFlags (some r) (s.stopCc r) := by
  simp only [blockFlags, State.stopCc]
  split
  · rfl
  · exact statusCc_statusFlags r.status

/-- Operations already on the bus count as the first ones of a block that goes on from there. -/
theorem State.blockEnds.prepend {k count : Nat} {last : Option Reply} {ops : Nat → BusOp}
    (h : u.blockEnds t count last fun j => ops (k + j)) (hbus : u.bus = ((List.range k).map ops).reverse ++ s.bus) :
    s.blockEnds t (k + count) last ops := by
  obtain ⟨hflags, hops⟩ := h
  refine ⟨hflags, ?_⟩
  rw [hops, hbus, Nat.add_assoc k]
  generalize count + _ = l
  rw [List.range_add, List.map_append, List.reverse_append, List.map_map, List.append_assoc]
  rfl

/-- A block that moved the bytes of `done` and then ended: the operations in their order, and the bytes read are
stored, no other. -/
structure State.MovedBlock (s t : State) (reads : Bool) (b : Bank) (d : Byte) (n : Word) (done : List Reply)
    (last : Option Reply) : Prop where
  ends : s.blockEnds t done.length last fun j => blockOp reads d (s.byteAt b (n + .ofNat 16 j))
  keeps : s.Keeps (t.withDevicesOf s) [] (blockBytes reads b n done.length)
  holds : reads = true → t.holdsData b n done

/-- One more byte moved before. -/
theorem State.MovedBlock.cons {reads : Bool} {n : Word} {done : List Reply} {last : Option Reply}
    (h : (s.moved reads b d n).MovedBlock t reads b d (n + 1) done last) (hm : Memory.wf s.mem = true)
    (hgood : goodTransfer (s.reply d)) (hlen : done.length < 65536) :
    s.MovedBlock t reads b d n (s.reply d :: done) last where
  ends := by
    have hops (j : Nat) : blockOp reads d ((s.moved reads b d n).byteAt b (n + 1 + .ofNat 16 j)) =
        blockOp reads d (s.byteAt b (n + .ofNat 16 (1 + j))) := by
      rw [State.blockOp_moved, BitVec.ofNat_add, ← BitVec.add_assoc]
      rfl
    have hends := h.ends
    simp only [hops] at hends
    rw [List.length_cons, Nat.add_comm]
    refine State.blockEnds.prepend hends ?_
    rw [s.moved_bus reads b d n hgood]
    simp
  keeps := h.keeps.of_moved
  holds := by
    rintro rfl j hj
    cases j with
    | zero =>
      have hfirst : ¬ span b (n + 1) done.length b n := fun ⟨_, hlt⟩ => by bv_omega
      have hkept := h.keeps.bytes b n hfirst
      rw [BitVec.add_zero]
      exact hkept.trans ((State.byteAt_setByte_self (s := s.operate d _) hm ..).trans (lowByte_eq_setWidth _))
    | succ j =>
      have hrest := h.holds rfl j (Nat.lt_of_succ_lt_succ hj)
      rw [add_ofNat_succ]
      exact hrest

/-- A block that ends before its first byte is moved, or that has no byte. -/
theorem moveBlock_movedBlock_nil {reads : Bool} {k : Nat} {n : Word} {rest : List Reply} {last : Option Reply}
    (h : s.answers d = rest) (hstops : blockStops k [] rest last) :
    s.MovedBlock (moveBlock reads b d k n s) reads b d n [] last := by
  have hholds (t : State) : reads = true → t.holdsData b n [] := fun _ j hj => absurd hj (Nat.not_lt_zero j)
  cases last with
  | none =>
    obtain rfl : k = 0 := hstops.symm
    exact ⟨⟨rfl, rfl⟩, moveBlock_keeps .., hholds _⟩
  | some r =>
    obtain ⟨hlt, hhead, hbad⟩ := hstops
    obtain ⟨k, rfl⟩ := Nat.exists_eq_succ_of_ne_zero (Nat.ne_zero_of_lt hlt)
    obtain ⟨more, rfl⟩ := List.head?_eq_some_iff.1 hhead
    obtain rfl := State.reply_of_answers h
    rw [moveBlock_succ_of_not_good hbad]
    refine ⟨⟨s.stopCc_blockFlags _, ?_⟩, State.Keeps.operate ((State.Keeps.refl _ _ _).of_eq rfl rfl rfl), hholds _⟩
    show (s.operate d _).bus = _
    rw [State.operate_bus]
    cases ht : (s.reply d).timeout <;> simp [ht]

theorem moveBlock_movedBlock {reads : Bool} {rest : List Reply} {last : Option Reply} :
    ∀ {done : List Reply} {k : Nat} {n : Word} {s : State}, Memory.wf s.mem = true → k ≤ 65536 →
      s.answers d = done ++ rest → (∀ r ∈ done, goodTransfer r) → blockStops k done rest last →
      s.MovedBlock (moveBlock reads b d k n s) reads b d n done last
  | [], _, _, _, _, _, ha, _, hstops => moveBlock_movedBlock_nil ha hstops
  | r :: done, k, n, s, hm, hk, ha, hgood, hstops => by
    obtain rfl := State.reply_of_answers ha
    obtain ⟨j, rfl, hstop⟩ := blockStops_cons hstops
    obtain ⟨hfirst, hrest⟩ := List.forall_mem_cons.1 hgood
    have hanswers : (s.moved reads b d n).answers d = done ++ rest := by rw [State.answers_moved, ha]; rfl
    rw [moveBlock_succ_of_good hfirst]
    exact (moveBlock_movedBlock (s.wf_moved reads b d n hm) (Nat.le_of_succ_le hk) hanswers hrest hstop).cons hm hfirst
      (Nat.lt_of_le_of_lt hstop.length_le hk)

/-! ### The block transfers -/

/-- Of a block that ended, what a claim about its direction says. -/
theorem State.MovedBlock.wrote {reads : Bool} {n : Word} {done : List Reply} {last : Option Reply}
    (h : s.MovedBlock t reads b d n done last) :
    if reads then t.holdsData b n done ∧ s.Keeps (t.withDevicesOf s) [] (span b n done.length)
    else s.Keeps (t.withDevicesOf s) [] nowhere := by
  cases reads
  · exact h.keeps
  · exact ⟨h.holds rfl, h.keeps⟩

theorem State.MovedBlock.advance {reads : Bool} {n : Word} {done : List Reply} {last : Option Reply}
    (h : s.MovedBlock t reads b d n done last) (len : Word) : s.MovedBlock (t.advance len) reads b d n done last :=
  ⟨h.ends, h.keeps.of_eq rfl rfl rfl, h.holds⟩

/-- A block transfer of `n` bytes of OBANK from `start` on leads from `s` to `t` (R380). -/
def State.transfersBlock (s t : State) (reads : Bool) (d : Byte) (len start : Word) (n : Nat) : Prop :=
  let b := s.psw.obank
  let op (j : Nat) : BusOp := blockOp reads d (s.byteAt b (start + .ofNat 16 j))
  let wrote (done : List Reply) : Prop :=
    if reads then t.holdsData b start done ∧ s.Keeps (t.withDevicesOf s) [] (span b start done.length)
    else s.Keeps (t.withDevicesOf s) [] nowhere
  t.requests = s.requests ∧ s.ccAndLc t (s.psw.lc + len) ∧
    s.Keeps (t.withDevicesOf s) [] (blockBytes reads b start n) ∧
    (n = 0 → t.psw.cc = ⟨false, false, false, false⟩ ∧ s.Keeps t [] nowhere) ∧
    ∀ done rest, s.answers d = done ++ rest → (∀ r ∈ done, goodTransfer r) →
      (done.length = n → s.blockEnds t n none op ∧ wrote done) ∧
      (∀ r, rest.head? = some r → ¬ goodTransfer r → done.length < n →
        s.blockEnds t done.length (some r) op ∧ wrote done)

theorem moveBlock_transfersBlock (hm : Memory.wf s.mem = true) (reads : Bool) (d : Byte) (len start : Word) {n : Nat}
    (hn : n ≤ 65536) :
    s.transfersBlock ((moveBlock reads s.psw.obank d n start s).advance len) reads d len start n := by
  obtain ⟨hpsw, hrequests⟩ := moveBlock_psw reads s.psw.obank d n start s
  refine ⟨hrequests, hpsw.advance len, (moveBlock_keeps ..).of_eq rfl rfl rfl, ?empty, fun done rest ha hgood => ?ends⟩
  case empty =>
    rintro rfl
    exact ⟨rfl, (State.Keeps.refl s _ _).of_eq rfl rfl rfl⟩
  case ends =>
    have hmoved (last : Option Reply) (hstops : blockStops n done rest last) :=
      (moveBlock_movedBlock (b := s.psw.obank) (reads := reads) (n := start) hm hn ha hgood hstops).advance len
    refine ⟨fun hlen => ?_, fun r hhead hbad hlt => ?_⟩
    · have hend := hmoved none hlen
      exact ⟨hlen ▸ hend.ends, hend.wrote⟩
    · have hend := hmoved (some r) ⟨hlt, hhead, hbad⟩
      exact ⟨hend.ends, hend.wrote⟩

theorem readBlock_between {start stop : Word}
    (h : s.bytesOk s.psw.obank (stop.toNat + 1 - start.toNat) start) : readBlock d (blockLength start stop) start s =
      .next (moveBlock true s.psw.obank d (stop.toNat + 1 - start.toNat) start s) := by
  rw [blockLength_eq]
  exact readBlock_eq h

theorem writeBlock_between {start stop : Word}
    (h : s.bytesOk s.psw.obank (stop.toNat + 1 - start.toNat) start) : writeBlock d (blockLength start stop) start s =
      .next (moveBlock false s.psw.obank d (stop.toNat + 1 - start.toNat) start s) := by
  rw [blockLength_eq]
  exact writeBlock_eq h

/-- An instruction that moves the block between two limits and goes on to the next one. -/
theorem transfersBlock_of_exec {i : Instr} {len start stop : Word} {reads : Bool} {o : Out}
    (hm : Memory.wf s.mem = true) (hexec : exec i s = andThen o fun t => .next (t.advance len))
    (ho : o = .next (moveBlock reads s.psw.obank d (stop.toNat + 1 - start.toNat) start s)) :
    ∃ t, exec i s = .next t ∧ s.transfersBlock t reads d len start (stop.toNat + 1 - start.toNat) := by
  have hlen : stop.toNat + 1 - start.toNat ≤ 65536 := by have := stop.isLt; omega
  rw [hexec, ho]
  exact ⟨_, rfl, moveBlock_transfersBlock hm reads d len start hlen⟩

/-! ### The limits of a block in memory -/

section Limits

variable {r1 x2 : Nibble} {a2 : Word} (hp : s.psw.prot = false) (h : s.fullOk s.psw.obank (s.ea x2 a2))

include hp h

theorem exec_rb : exec (.rb r1 x2 a2) s = andThen (readBlock (s.device r1)
    (blockLength (s.halfAt s.psw.obank (s.ea x2 a2)) (s.halfAt s.psw.obank (s.ea x2 a2 + 2)))
    (s.halfAt s.psw.obank (s.ea x2 a2)) s) fun t => .next (t.advance len4) := by
  refine (privileged_pos hp).trans ((State.operandFull_pos h).trans ?_)
  rw [State.fullAt, BitVec.extractLsb'_append_eq_left, BitVec.extractLsb'_append_eq_right]

theorem exec_wb : exec (.wb r1 x2 a2) s = andThen (writeBlock (s.device r1)
    (blockLength (s.halfAt s.psw.obank (s.ea x2 a2)) (s.halfAt s.psw.obank (s.ea x2 a2 + 2)))
    (s.halfAt s.psw.obank (s.ea x2 a2)) s) fun t => .next (t.advance len4) := by
  refine (privileged_pos hp).trans ((State.operandFull_pos h).trans ?_)
  rw [State.fullAt, BitVec.extractLsb'_append_eq_left, BitVec.extractLsb'_append_eq_right]

end Limits

/-! ### The leader of an Autoload -/

theorem isLeader_iff (r : Reply) : isLeader r = true ↔ goodTransfer r ∧ (r.data.setWidth 8 : Byte) = 0 := by
  simp [isLeader, goodTransfer, badStatus, lowByte_eq_setWidth]

/-- The script without a device's leader gives that device's answers from the first on that is not leader. -/
theorem filter_dropLeader (d : Byte) (l : List Reply) :
    ((dropLeader d l).filter fun r => r.device == d) = (l.filter fun r => r.device == d).dropWhile isLeader := by
  induction l with
  | nil => rfl
  | cons r l ih =>
    rw [dropLeader]
    cases hd : r.device == d <;> cases hl : isLeader r <;> simp_all

/-- With an answer to come that is not leader, just the leader is read: it is on the bus, and the other answers are
still to come (R374). -/
theorem State.afterLeader_of_answers {l rest : List Reply} {r : Reply} (h : s.answers d = l ++ r :: rest)
    (hl : ∀ q ∈ l, isLeader q = true) (hr : isLeader r = false) :
    (s.afterLeader d).answers d = r :: rest ∧
      (s.afterLeader d).bus = List.replicate l.length (.readByte d) ++ s.bus := by
  have hdrop : ((dropLeader d s.replies).filter fun q => q.device == d) = r :: rest := by
    rw [filter_dropLeader]
    refine (congrArg (List.dropWhile isLeader) h).trans ?_
    rw [List.dropWhile_append_of_pos hl, List.dropWhile_cons_of_neg (by simp [hr])]
  have htake : leader d s.replies = l := by
    refine (congrArg (List.takeWhile isLeader) h).trans ?_
    rw [List.takeWhile_append_of_pos hl, List.takeWhile_cons_of_neg (by simp [hr]), List.append_nil]
  have hany : ((dropLeader d s.replies).any fun q => q.device == d) = true := by
    have hmem : r ∈ (dropLeader d s.replies).filter fun q => q.device == d := by simp [hdrop]
    exact List.any_eq_true.2 ⟨r, List.mem_filter.1 hmem⟩
  refine ⟨?_, by rw [State.afterLeader_eq, htake]⟩
  simp only [State.afterLeader, hany, if_true]
  exact hdrop

/-! ### The instructions -/

/-- Operation number `j` of an Autoload: the command, then reads. -/
def loadOp (d v : Byte) (j : Nat) : BusOp := if j = 0 then .command d v else .readByte d

/-- The operations of an Autoload before its first byte is stored. -/
theorem map_loadOp (d v : Byte) (k : Nat) :
    ((List.range (1 + k)).map (loadOp d v)).reverse = List.replicate k (.readByte d) ++ [.command d v] := by
  rw [Nat.add_comm, List.range_succ_eq_map, List.map_cons, List.map_map, List.reverse_cons]
  have hread : loadOp d v ∘ Nat.succ = fun _ => .readByte d := rfl
  rw [hread, List.map_const', List.length_range, List.reverse_replicate]
  rfl

/-- What follows the leader is not leader: a byte that is not zero, or the answer that ends the block (log 22). -/
theorem exists_not_leader {n : Nat} {done rest : List Reply} {last : Option Reply} (hn : 0 < n)
    (hstops : blockStops n done rest last) (hhead : ∀ r, done.head? = some r → (r.data.setWidth 8 : Byte) ≠ 0) :
    ∃ r more, done ++ rest = r :: more ∧ isLeader r = false := by
  cases done with
  | cons r done =>
    exact ⟨r, done ++ rest, rfl, Bool.eq_false_iff.2 fun h => hhead r rfl ((isLeader_iff r).1 h).2⟩
  | nil =>
    cases last with
    | none => exact absurd hstops.symm hn.ne'
    | some r =>
      obtain ⟨-, hfirst, hbad⟩ := hstops
      obtain ⟨more, rfl⟩ := List.head?_eq_some_iff.1 hfirst
      exact ⟨r, more, rfl, Bool.eq_false_iff.2 fun h => hbad ((isLeader_iff r).1 h).1⟩

/-- The state of an Autoload whose command is sent and whose leader is skipped. -/
def State.led (s : State) (d v : Byte) : State := (s.operate d (.command d v)).afterLeader d

theorem State.led_eq (s : State) (d v : Byte) : s.led d v =
    { s with replies := (s.led d v).replies, draws := (s.led d v).draws, bus := (s.led d v).bus } := by
  unfold State.led
  rw [State.afterLeader_eq]
  rfl

theorem State.led_psw (s : State) (d v : Byte) : (s.led d v).psw = s.psw := by rw [State.led_eq]

theorem State.led_requests (s : State) (d v : Byte) : (s.led d v).requests = s.requests := by rw [State.led_eq]

theorem State.Keeps.led {v : Byte} (h : (s.led d v).Keeps (t.withDevicesOf (s.led d v)) rs m) :
    s.Keeps (t.withDevicesOf s) rs m := by
  refine State.Keeps.trans_devices ?_ h
  rw [State.led_eq]
  exact (State.Keeps.refl s _ _).of_eq rfl rfl rfl

/-- An Autoload of `n` bytes after its command and its leader: the bus has both, and the bytes go from 80 on (R374). -/
theorem moveBlock_led {v : Byte} {n : Nat} {c : Reply} {l done rest : List Reply} {last : Option Reply}
    (hm : Memory.wf s.mem = true) (hn : 0 < n) (hn' : n ≤ 65536) (ha : s.answers d = c :: l ++ done ++ rest)
    (hc : c.timeout = false) (hgood : ∀ r ∈ l ++ done, goodTransfer r)
    (hzero : ∀ r ∈ l, (r.data.setWidth 8 : Byte) = 0)
    (hhead : ∀ r, done.head? = some r → (r.data.setWidth 8 : Byte) ≠ 0) (hstops : blockStops n done rest last) :
    let t := (moveBlock true 0 d n 0x0080 (s.led d v)).advance len4
    s.blockEnds t (1 + l.length + done.length) last (loadOp d v) ∧
      t.holdsData 0 0x0080 done ∧ s.Keeps (t.withDevicesOf s) [] (span 0 0x0080 done.length) := by
  obtain ⟨hgoodl, hgoodd⟩ := List.forall_mem_append.1 hgood
  obtain ⟨r, more, hmore, hr⟩ := exists_not_leader hn hstops hhead
  obtain rfl : s.reply d = c := State.reply_of_answers ha
  have hanswers : (s.operate d (.command d v)).answers d = l ++ r :: more := by
    rw [State.answers_operate, ha, ← hmore, List.append_assoc]; rfl
  obtain ⟨hled, hbus⟩ := State.afterLeader_of_answers hanswers
    (fun q hq => (isLeader_iff q).2 ⟨hgoodl q hq, hzero q hq⟩) hr
  rw [State.operate_bus, hc] at hbus
  have hwf : Memory.wf (s.led d v).mem = true := by rw [State.led_eq]; exact hm
  have hmoved := (moveBlock_movedBlock (reads := true) (b := 0) (n := 0x0080) hwf hn' (hled.trans hmore.symm) hgoodd
    hstops).advance len4
  have hops : (fun j => loadOp d v (1 + l.length + j)) = fun _ => .readByte d := by
    funext j
    exact if_neg (by omega)
  refine ⟨State.blockEnds.prepend (u := s.led d v) ?_ ?_, hmoved.holds rfl, hmoved.keeps.led⟩
  · rw [hops]; exact hmoved.ends
  · rw [map_loadOp, List.append_assoc]; exact hbus

/-- What AL answers in Supervisor Mode where its area is memory: the block past the leader, unless the command times
out (R374). -/
theorem exec_al {x2 : Nibble} {a2 : Word} (hp : s.psw.prot = false)
    (hok : s.bytesOk 0 (autoloadMore (s.ea x2 a2) + 1) 0x0080) :
    let e := s.byteAt 0 0x0078
    let v := s.byteAt 0 0x0079
    exec (.al 0 x2 a2) s = .next (if (s.reply e).timeout then
        ((s.operate e (.command e v)).setCc s.timeoutCc).advance len4
      else (moveBlock true 0 e (autoloadMore (s.ea x2 a2) + 1) 0x0080 (s.led e v)).advance len4) := by
  intro e v
  refine (privileged_pos hp).trans ((require_pos rfl).trans ?_)
  have hled : (s.led e v).bytesOk 0 (autoloadMore (s.ea x2 a2) + 1) 0x0080 := by rw [State.led_eq]; exact hok
  have hload := autoload_eq (d := e) hled
  dsimp only
  split
  · rfl
  · exact congrArg (andThen · fun u => .next (u.advance len4)) hload

/-- An Autoload of `n` bytes leads from `s` to `t` (R374). -/
def State.autoloads (s t : State) (n : Nat) : Prop :=
  let e := s.byteAt 0 0x0078
  let op := loadOp e (s.byteAt 0 0x0079)
  t.requests = s.requests ∧ s.ccAndLc t (s.psw.lc + 4) ∧ s.Keeps (t.withDevicesOf s) [] (span 0 0x0080 n) ∧
    ((s.reply e).timeout = true → t.psw.cc.v = true ∧ t.bus = s.bus ∧ s.Keeps (t.withDevicesOf s) [] nowhere) ∧
    ∀ c leader done rest, s.answers e = c :: leader ++ done ++ rest → c.timeout = false →
      (∀ r ∈ leader ++ done, goodTransfer r) → (∀ r ∈ leader, (r.data.setWidth 8 : Byte) = 0) →
      (∀ r, done.head? = some r → (r.data.setWidth 8 : Byte) ≠ 0) →
      let wrote : Prop := t.holdsData 0 0x0080 done ∧ s.Keeps (t.withDevicesOf s) [] (span 0 0x0080 done.length)
      (done.length = n → s.blockEnds t (1 + leader.length + n) none op ∧ wrote) ∧
      (∀ r, rest.head? = some r → ¬ goodTransfer r → done.length < n →
        s.blockEnds t (1 + leader.length + done.length) (some r) op ∧ wrote)

/-- A command that times out ends the Autoload before its first read. -/
theorem State.autoloads_of_timeout {v : Byte} (n : Nat) (ht : (s.reply (s.byteAt 0 0x0078)).timeout = true) :
    s.autoloads (((s.operate (s.byteAt 0 0x0078) (.command (s.byteAt 0 0x0078) v)).setCc s.timeoutCc).advance len4)
      n := by
  have hnothing (m : Bank → Word → Prop) := (State.Keeps.refl (s.operate (s.byteAt 0 0x0078)
    (.command (s.byteAt 0 0x0078) v)) [] m).operate_end s.timeoutCc len4
  have hbus (op : BusOp) : (s.operate (s.byteAt 0 0x0078) op).bus = s.bus := by rw [State.operate_bus, ht]; rfl
  refine ⟨rfl, rfl, hnothing _, fun _ => ⟨rfl, hbus _, hnothing _⟩, fun c l done rest ha hc => ?_⟩
  obtain rfl : s.reply (s.byteAt 0 0x0078) = c := State.reply_of_answers ha
  exact absurd (ht.symm.trans hc) (by decide)

/-- A command that is answered: what is read past the leader is the block. -/
theorem State.autoloads_of_answer {n : Nat} (hm : Memory.wf s.mem = true) (hn : 0 < n) (hn' : n ≤ 65536)
    (ht : ¬ (s.reply (s.byteAt 0 0x0078)).timeout = true) :
    s.autoloads ((moveBlock true 0 (s.byteAt 0 0x0078) n 0x0080
      (s.led (s.byteAt 0 0x0078) (s.byteAt 0 0x0079))).advance len4) n := by
  obtain ⟨hpsw, hrequests⟩ := moveBlock_psw true 0 (s.byteAt 0 0x0078) n 0x0080
    (s.led (s.byteAt 0 0x0078) (s.byteAt 0 0x0079))
  have hkeeps := (moveBlock_keeps true 0 (s.byteAt 0 0x0078) n 0x0080
    (s.led (s.byteAt 0 0x0078) (s.byteAt 0 0x0079))).led
  rw [State.ccAndLc, State.led_psw] at hpsw
  rw [State.led_requests] at hrequests
  refine ⟨hrequests, State.ccAndLc.advance hpsw len4, hkeeps.of_eq rfl rfl rfl, fun h => absurd h ht,
    fun c l done rest ha hc hgood hzero hhead => ⟨fun hlen => ?_, fun r hfirst hbad hlt => ?_⟩⟩
  · subst hlen
    exact moveBlock_led hm hn hn' ha hc hgood hzero hhead (last := none) rfl
  · exact moveBlock_led hm hn hn' ha hc hgood hzero hhead (last := some r) ⟨hlt, hfirst, hbad⟩

/-- Settles O36: every block is `moveBlock`; RB and WB read its limits first, AL sends its command and skips the
leader. -/
theorem blockTransfers : Obligations.BlockTransfers := by
  intro s r1 hm hp
  rw [← s.device_eq r1]
  refine ⟨fun r2 h14 => ⟨fun hok => ?rbr, fun hok => ?wbr⟩, fun x2 a2 hfull => ⟨fun hok => ?rb, fun hok => ?wb⟩,
    fun x2 a2 => ?al⟩
  case rbr =>
    exact transfersBlock_of_exec hm ((privileged_pos hp).trans (require_pos ((pairReg_iff r2).2 h14)))
      (readBlock_between hok)
  case wbr =>
    exact transfersBlock_of_exec hm ((privileged_pos hp).trans (require_pos ((pairReg_iff r2).2 h14)))
      (writeBlock_between hok)
  case rb => exact transfersBlock_of_exec hm (exec_rb hp hfull) (readBlock_between hok)
  case wb => exact transfersBlock_of_exec hm (exec_wb hp hfull) (writeBlock_between hok)
  case al =>
    have hn : max 0x80 (s.ea x2 a2).toNat + 1 - 0x80 = autoloadMore (s.ea x2 a2) + 1 := by
      unfold autoloadMore; omega
    have hn' : autoloadMore (s.ea x2 a2) + 1 ≤ 65536 := by
      have := (s.ea x2 a2).isLt; unfold autoloadMore; omega
    rw [hn]
    intro e n hok
    refine ⟨_, exec_al hp hok, ?_⟩
    split
    · next ht => exact State.autoloads_of_timeout _ ht
    · next ht => exact State.autoloads_of_answer hm (Nat.succ_pos _) hn' ht

end Sys2Proof.Machine
end

section
/-! The reset state, the Protect Mode interrupt, and the augment set (49_list_trig_augment.md R430 to R438,
60_exceptions.md R467, R476, 70_reset_and_hazards.md R531). -/

namespace Sys2Proof.Machine

variable {s : State}

/-- Settles O55: memory with nothing listed is canonical, and 16 is a legal precision. -/
theorem resetInvariant : Obligations.ResetInvariant :=
  ⟨⟨State.wf_reset, rfl, rfl, Nat.zero_lt_succ _⟩, rfl⟩

/-! ### Protect Mode -/

theorem privileged_trap {out : Out} (h : s.psw.prot = true) : s.privileged out = .next s.raiseProtect := if_pos h

/-- The privileged instructions (60_exceptions.md R476). -/
def privilegedInstrs (r1 r2 : Nibble) (a2 : Word) : List Instr :=
  [.air r1 r2, .ai r1 r2 a2, .ssr r1 r2, .ss r1 r2 a2, .ocr r1 r2, .oc r1 r2 a2, .rdr r1 r2, .rd r1 r2 a2,
    .wdr r1 r2, .wd r1 r2 a2, .al r1 r2 a2, .rhr r1 r2, .rh r1 r2 a2, .whr r1 r2, .wh r1 r2 a2, .rbr r1 r2,
    .rb r1 r2 a2, .wbr r1 r2, .wb r1 r2 a2, .lpsw r1 r2 a2, .epsr r1 r2, .sint r1 r2 a2, .sesb r1 r2 a2,
    .resb r1 r2 a2]

/-- The check for Protect Mode stands before everything else that a privileged instruction does. -/
theorem exec_privilegedInstrs (s : State) (r1 r2 : Nibble) (a2 : Word) :
    ∀ i ∈ privilegedInstrs r1 r2 a2, ∃ out, exec i s = s.privileged out :=
  List.forall_iff_forall_mem.1 ⟨⟨_, rfl⟩, ⟨_, rfl⟩, ⟨_, rfl⟩, ⟨_, rfl⟩, ⟨_, rfl⟩, ⟨_, rfl⟩, ⟨_, rfl⟩, ⟨_, rfl⟩,
    ⟨_, rfl⟩, ⟨_, rfl⟩, ⟨_, rfl⟩, ⟨_, rfl⟩, ⟨_, rfl⟩, ⟨_, rfl⟩, ⟨_, rfl⟩, ⟨_, rfl⟩, ⟨_, rfl⟩, ⟨_, rfl⟩, ⟨_, rfl⟩,
    ⟨_, rfl⟩, ⟨_, rfl⟩, ⟨_, rfl⟩, ⟨_, rfl⟩, ⟨_, rfl⟩⟩

/-- Settles O45: in Protect Mode the check takes the exchange at 30 and 34, which do not overlap. -/
theorem privilegedTrap : Obligations.PrivilegedTrap := by
  intro s r1 r2 a2 hm hprot i hi
  obtain ⟨out, hexec⟩ := exec_privilegedInstrs s r1 r2 a2 i hi
  exact ⟨s.raiseProtect, hexec.trans (privileged_trap hprot),
    State.swapped_exchange hm 0x0030 0x0034 s.psw.lc (by decide)⟩

/-! ### The control bits of the PSW -/

theorem Psw.control_withControl (p : Psw) (b : Byte) : (p.withControl b).control = b := by
  unfold Psw.control Psw.withControl
  ext i hi
  simp only [← BitVec.getLsbD_eq_getElem, BitVec.getLsbD_append, BitVec.getLsbD_ofBool, BitVec.getMsbD]
  interval_cases i <;> simp

/-- Bits 8:15 of the status: the banks and the Condition Code. -/
def Psw.lowStatus (p : Psw) : Byte := p.pbank ++ p.obank ++ p.cc.bits

/-- The status is the control bits, then the banks and the Condition Code (10_state.md R26). -/
theorem Psw.status_eq (p : Psw) : p.status = p.control ++ p.lowStatus := by
  unfold Psw.status Psw.lowStatus
  ext i hi
  simp only [← BitVec.getLsbD_eq_getElem, BitVec.getLsbD_append]
  interval_cases i <;> rfl

/-- Loading the control bits leaves the rest of the status. -/
theorem Psw.status_withControl (p : Psw) (b : Byte) : (p.withControl b).status = b ++ p.lowStatus := by
  rw [Psw.status_eq, Psw.control_withControl]; rfl

/-- The mask of bits 0:7 of a halfword is its left byte, padded with zeros on the right. -/
theorem and_FF00_eq (w : Word) : w &&& 0xFF00 = highByte w ++ (0 : Byte) := by
  have hmask : (0xFF00 : Word) = (BitVec.allOnes 8 : Byte) ++ (0 : Byte) := by decide
  have hzero : w.extractLsb' 0 8 &&& (0 : Byte) = 0 := BitVec.and_zero
  conv_lhs => rw [← Laws.append_bytes_self w, hmask, BitVec.and_append, BitVec.and_allOnes, hzero]
  rfl

theorem Psw.status_setControlBits (p : Psw) (w : Word) :
    (p.withControl (p.control ||| highByte w)).status = p.status ||| (w &&& 0xFF00) := by
  have hzero : p.lowStatus ||| (0 : Byte) = p.lowStatus := BitVec.or_zero
  rw [Psw.status_withControl, Psw.status_eq, and_FF00_eq, BitVec.or_append, hzero]

theorem Psw.status_resetControlBits (p : Psw) (w : Word) :
    (p.withControl (p.control &&& ~~~(highByte w))).status = p.status &&& ~~~(w &&& 0xFF00) := by
  have hones : p.lowStatus &&& ~~~(0 : Byte) = p.lowStatus := BitVec.and_allOnes
  rw [Psw.status_withControl, Psw.status_eq, and_FF00_eq, BitVec.not_append, BitVec.and_append, hones]

/-- Settles O42: the two masks act on the control bits, which are the left byte of the status (R431, R432). -/
theorem statusBits : Obligations.StatusBits := by
  intro s i2 hprot
  refine ⟨⟨_, (privileged_pos hprot).trans (require_pos rfl), ?sesb, rfl, ?keeps⟩,
    ⟨_, (privileged_pos hprot).trans (require_pos rfl), ?resb, rfl, ?keeps'⟩⟩
  case sesb => exact s.psw.status_setControlBits i2
  case resb => exact s.psw.status_resetControlBits i2
  case keeps | keeps' => exact (State.Keeps.refl s [] nowhere).of_eq rfl rfl rfl

/-! ### Loads that convert -/

/-- G and L of a result that is neither zero nor of the other sign. -/
theorem signFlags_positive {w : Nat} {r : BitVec w} (c v : Bool) (h0 : r ≠ 0) (h : r.msb = false) :
    signFlags r ⟨c, v, true, false⟩ := by
  have hflags := signFlags_of_msb r c v
  rwa [h, beq_eq_false_iff_ne.2 h0] at hflags

theorem signFlags_negative {w : Nat} {r : BitVec w} (c v : Bool) (h : r.msb = true) :
    signFlags r ⟨c, v, false, true⟩ := by
  have hflags := signFlags_of_msb r c v
  rwa [h, Bool.not_true, Bool.and_false] at hflags

/-- What a chart of R433 to R437 says: C and V as given, G and L the sign of the result. -/
def chartFlags (c v : Prop) (r : Word) (cc : Cc) : Prop := (cc.c = true ↔ c) ∧ (cc.v = true ↔ v) ∧ signFlags r cc

/-- The chart of the two-complement (R433). -/
theorem complementCc_chartFlags (v : Word) : chartFlags (v ≠ 0) (v = 0x8000) (-v) (complementCc v) := by
  unfold complementCc ccRow
  by_cases h0 : v = 0
  · subst h0; unfold chartFlags signFlags; decide
  by_cases h8 : v = 0x8000
  · subst h8; unfold chartFlags signFlags; decide
  have hne : -v ≠ 0 := by bv_omega
  rw [if_neg h0, if_neg h8]
  cases hmsb : (-v).msb with
  | true => exact ⟨iff_of_true rfl h0, iff_of_false Bool.false_ne_true h8, signFlags_negative _ _ hmsb⟩
  | false => exact ⟨iff_of_true rfl h0, iff_of_false Bool.false_ne_true h8, signFlags_positive _ _ hne hmsb⟩

theorem msb_iff (v : Word) : v.msb = true ↔ 0x8000 ≤ v.toNat := by
  rw [BitVec.msb_eq_decide, decide_eq_true_iff]

theorem msb_eq_false_iff (v : Word) : v.msb = false ↔ v.toNat < 0x8000 := by
  rw [← Bool.not_eq_true, msb_iff, Nat.not_le]

/-- The change of number base: the two arithmetics agree but for the negative numbers (R435). -/
theorem changeBase_value (v : Word) :
    (if v.msb then 0x8000 - v else v) = if v.toNat < 0x8000 then v else 0x8000 - v := by
  cases h : v.msb with
  | true => rw [if_pos rfl, if_neg (Nat.not_lt.2 ((msb_iff v).1 h))]
  | false => rw [if_neg Bool.false_ne_true, if_pos ((msb_eq_false_iff v).1 h)]

/-- The chart of the change of number base (R435). -/
theorem changeBaseCc_chartFlags (v : Word) :
    chartFlags (v = 0x8000) False (if v.msb then 0x8000 - v else v) (changeBaseCc v) := by
  unfold changeBaseCc ccRow
  by_cases h0 : v = 0
  · subst h0; unfold chartFlags signFlags; decide
  by_cases h8 : v = 0x8000
  · subst h8; unfold chartFlags signFlags; decide
  rw [if_neg h0, if_neg h8]
  cases hmsb : v.msb with
  | true =>
    have hneg := (msb_iff v).1 hmsb
    have hres : 0x8000 ≤ (0x8000 - v).toNat := by bv_omega
    exact ⟨iff_of_false Bool.false_ne_true h8, iff_of_false Bool.false_ne_true id,
      signFlags_negative _ _ ((msb_iff _).2 hres)⟩
  | false =>
    exact ⟨iff_of_false Bool.false_ne_true h8, iff_of_false Bool.false_ne_true id, signFlags_positive _ _ h0 hmsb⟩

/-- The magnitude of a number, which for 8000 is 8000 again (R437). -/
theorem absolute_value (v : Word) : (if v.msb then -v else v) = .ofNat 16 v.toInt.natAbs := by
  apply BitVec.eq_of_toNat_eq
  have hlt := v.isLt
  rw [BitVec.toInt_eq_msb_cond, BitVec.toNat_ofNat]
  cases hmsb : v.msb with
  | true =>
    have hneg := (msb_iff v).1 hmsb
    simp only [if_true, BitVec.toNat_neg]
    omega
  | false =>
    simp only [Bool.false_eq_true, if_false, Int.natAbs_natCast]
    exact (Nat.mod_eq_of_lt hlt).symm

/-- The chart of the magnitude (R437). -/
theorem absoluteCc_chartFlags (v : Word) :
    chartFlags (v.toInt < 0) (v = 0x8000) (if v.msb then -v else v) (absoluteCc v) := by
  unfold absoluteCc ccRow
  by_cases h0 : v = 0
  · subst h0; unfold chartFlags signFlags; decide
  by_cases h8 : v = 0x8000
  · subst h8; unfold chartFlags signFlags; decide
  rw [if_neg h0, if_neg h8]
  have hsign : v.msb = true ↔ v.toInt < 0 := by rw [BitVec.msb_eq_toInt, decide_eq_true_iff]
  cases hmsb : v.msb with
  | true =>
    have hneg := (msb_iff v).1 hmsb
    have hne : -v ≠ 0 := by clear hsign; bv_omega
    have hres : (-v).toNat < 0x8000 := by clear hsign; bv_omega
    exact ⟨iff_of_true rfl (hsign.1 hmsb), iff_of_false Bool.false_ne_true h8,
      signFlags_positive _ _ hne ((msb_eq_false_iff _).2 hres)⟩
  | false =>
    exact ⟨iff_of_false Bool.false_ne_true (mt hsign.2 (Bool.eq_false_iff.1 hmsb)),
      iff_of_false Bool.false_ne_true h8, signFlags_positive _ _ h0 hmsb⟩

/-- Settles O43: the three operations end alike, with the result of each and its chart. -/
theorem loadConverted : Obligations.LoadConverted := by
  intro s r1 complement base magnitude flags converts
  have puts {i : Instr} {len v : Word} {f : Word → Word} {c o : Prop} {cc : Cc}
      (hexec : exec i s = .next (putCoded len r1 (f v) cc s)) (hcc : chartFlags c o (f v) cc) :
      converts i len v f c o := ⟨_, hexec, State.putsHalf_set hcc⟩
  have complements {i : Instr} {len v : Word} (hexec : exec i s = .next (loadComplement len r1 v s)) :
      converts i len v complement (v ≠ 0) (v = 0x8000) :=
    have hneg : -v = complement v := (BitVec.zero_sub v).symm
    puts (by rw [hexec, loadComplement, hneg]) (hneg ▸ complementCc_chartFlags v)
  have rebases {i : Instr} {len v : Word} (hexec : exec i s = .next (changeBase len r1 v s)) :
      converts i len v base (v = 0x8000) False :=
    puts (by rw [hexec, changeBase, changeBase_value]) (changeBase_value v ▸ changeBaseCc_chartFlags v)
  have absolutes {i : Instr} {len v : Word} (hexec : exec i s = .next (loadAbsolute len r1 v s)) :
      converts i len v magnitude (v.toInt < 0) (v = 0x8000) :=
    puts (by rw [hexec, loadAbsolute, absolute_value]) (absolute_value v ▸ absoluteCc_chartFlags v)
  have operand {f : Word → State} {x2 : Nibble} {a2 : Word} (hok : s.halfOk s.psw.obank (s.ea x2 a2)) :
      (s.operandHalf x2 a2 fun v => .next (f v)) = .next (f (s.halfAt s.psw.obank (s.ea x2 a2))) :=
    State.operandHalf_pos hok
  exact ⟨fun r2 => ⟨complements rfl, rebases rfl, absolutes rfl⟩,
    fun x2 a2 hok => ⟨complements (operand (f := fun v => loadComplement len4 r1 v s) hok),
      rebases (operand (f := fun v => changeBase len4 r1 v s) hok),
      absolutes (operand (f := fun v => loadAbsolute len4 r1 v s) hok)⟩⟩

end Sys2Proof.Machine
end

section
/-! What no instruction can change, and how Protect Mode is left (60_exceptions.md R467, R476, 10_state.md R34, R42):
every outcome is one of four kinds, found by the shape of each meaning. -/

namespace Sys2Proof.Machine

variable {s t u : State} {i : Instr}

/-! ### How far an instruction reaches -/

/-- From `s` to `t` only the registers, memory, the PSW and the draws change. -/
def State.reachesCore (s t : State) : Prop :=
  ∃ regs mem psw draws, t = { s with regs := regs, mem := mem, psw := psw, draws := draws }

/-- From `s` to `t` only these and the devices change. -/
def State.reachesDevices (s t : State) : Prop :=
  ∃ regs mem psw draws requests replies bus,
    t = { s with regs := regs, mem := mem, psw := psw, draws := draws, requests := requests, replies := replies,
                 bus := bus }

theorem State.reachesCore.devices (h : s.reachesCore t) : s.reachesDevices t := by
  obtain ⟨_, _, _, _, rfl⟩ := h
  exact ⟨_, _, _, _, _, _, _, rfl⟩

theorem State.reachesDevices.trans (h : s.reachesDevices t) (h' : t.reachesDevices u) : s.reachesDevices u := by
  obtain ⟨_, _, _, _, _, _, _, rfl⟩ := h
  obtain ⟨_, _, _, _, _, _, _, rfl⟩ := h'
  exact ⟨_, _, _, _, _, _, _, rfl⟩

/-- The ways out of Protect Mode that an instruction itself has: SVC, and a divide or floating-point fault that is
enabled. -/
def State.exits (s : State) (i : Instr) : Prop :=
  (∃ a b w, i = .svc a b w) ∨
    (s.psw.fdfEn = true ∧ ∃ a b w, i ∈ [Instr.dhr a b, .dh a b w, .ddpr a b, .ddp a b w]) ∨
    (s.psw.fpfEn = true ∧ ∃ a b w, i ∈ [Instr.ler a b, .le a b w, .aer a b, .ae a b w, .ser a b, .se a b w,
      .mer a b, .me a b w, .der a b, .de a b w])

/-- What an instruction can answer. -/
inductive State.Guarded (s : State) (i : Instr) (t : State) : Prop where
  /-- It stays within the core, in its mode unless it is one that exits. -/
  | core (reach : s.reachesCore t) (mode : t.psw.prot = s.psw.prot ∨ s.exits i)
  /-- It writes the precision register. -/
  | precision (writes : ∃ r1 r2, i = .ecpr r1 r2) (reach : s.reachesCore { t with cpr := s.cpr })
      (mode : t.psw.prot = s.psw.prot)
  /-- It is privileged, and the mode is Supervisor Mode. -/
  | supervisor (mode : s.psw.prot = false) (reach : s.reachesDevices t)
  /-- It is privileged, and trapped. -/
  | trapped (trap : t = s.raiseProtect)

/-- A state of the core in its mode. -/
theorem State.Guarded.quiet {regs : Vector Word 16} {mem : List Host.Cell} {psw : Psw} {draws : Nat}
    (h : t = { s with regs := regs, mem := mem, psw := psw, draws := draws }) (hmode : psw.prot = s.psw.prot) :
    s.Guarded i t := .core ⟨_, _, _, _, h⟩ (.inl (h ▸ hmode))

theorem raiseProtect_reachesCore (s : State) : s.reachesCore s.raiseProtect := ⟨_, _, _, _, rfl⟩

/-- The Supervisor Call stores six bytes and loads a PSW. -/
theorem supervisorCall_reachesCore (kind : Nibble) (pointer next : Word) :
    s.reachesCore (s.supervisorCall kind pointer next) := by
  unfold State.supervisorCall
  extract_lets t
  have ht : s.reachesCore t := ⟨_, _, _, _, rfl⟩
  clear_value t
  obtain ⟨_, _, _, _, rfl⟩ := ht
  exact ⟨_, _, _, _, rfl⟩

/-- What an instruction answers says what O54 claims of it. -/
theorem State.Guarded.claims (h : s.Guarded i t) :
    (t.cpr = s.cpr ∨ ∃ r1 r2, i = .ecpr r1 r2) ∧
    (t.apfPending = s.apfPending ∧ t.parityInstr = s.parityInstr ∧ t.parityOperand = s.parityOperand ∧
      t.power = s.power ∧ t.memOperational = s.memOperational ∧ t.rtc = s.rtc ∧ t.etc = s.etc ∧
      t.arrivals = s.arrivals ∧ t.params = s.params) ∧
    (s.psw.prot = true → t.requests = s.requests ∧ t.replies = s.replies ∧ t.bus = s.bus) ∧
    (s.psw.prot = true → t.psw.prot = false → t = s.raiseProtect ∨ s.exits i) := by
  have core {t : State} (h : s.reachesCore t) : t.cpr = s.cpr ∧
      (t.apfPending = s.apfPending ∧ t.parityInstr = s.parityInstr ∧ t.parityOperand = s.parityOperand ∧
        t.power = s.power ∧ t.memOperational = s.memOperational ∧ t.rtc = s.rtc ∧ t.etc = s.etc ∧
        t.arrivals = s.arrivals ∧ t.params = s.params) ∧
      t.requests = s.requests ∧ t.replies = s.replies ∧ t.bus = s.bus := by
    obtain ⟨_, _, _, _, rfl⟩ := h
    exact ⟨rfl, ⟨rfl, rfl, rfl, rfl, rfl, rfl, rfl, rfl, rfl⟩, rfl, rfl, rfl⟩
  cases h with
  | core reach mode =>
    obtain ⟨hcpr, hsignals, hdevices⟩ := core reach
    refine ⟨.inl hcpr, hsignals, fun _ => hdevices, fun hp hleft => .inr (mode.resolve_left fun hkept => ?_)⟩
    rw [hleft, hp] at hkept
    cases hkept
  | precision writes reach mode =>
    obtain ⟨-, hsignals, hdevices⟩ := core reach
    refine ⟨.inr writes, hsignals, fun _ => hdevices, fun hp hleft => ?_⟩
    rw [hleft, hp] at mode
    cases mode
  | supervisor mode reach =>
    obtain ⟨_, _, _, _, _, _, _, rfl⟩ := reach
    exact ⟨.inl rfl, ⟨rfl, rfl, rfl, rfl, rfl, rfl, rfl, rfl, rfl⟩, fun hp => absurd hp (Bool.eq_false_iff.1 mode),
      fun hp => absurd hp (Bool.eq_false_iff.1 mode)⟩
  | trapped trap =>
    obtain ⟨hcpr, hsignals, hdevices⟩ := core (trap ▸ raiseProtect_reachesCore s)
    exact ⟨.inl hcpr, hsignals, fun _ => hdevices, fun _ _ => .inl trap⟩

/-! ### The shared endings -/

theorem advance_guarded (len : Word) : s.Guarded i (s.advance len) := .quiet rfl rfl

theorem loadHalf_guarded (len : Word) (r : Nibble) (v : Word) : s.Guarded i (loadHalf len r v s) := .quiet rfl rfl

theorem loadFull_guarded (len : Word) (r : Nibble) (v : Full) : s.Guarded i (loadFull len r v s) := .quiet rfl rfl

theorem putHalf_guarded (len : Word) (r : Nibble) (f : Flagged 16) : s.Guarded i (putHalf len r f s) := .quiet rfl rfl

theorem putFull_guarded (len : Word) (r : Nibble) (f : Flagged 32) : s.Guarded i (putFull len r f s) := .quiet rfl rfl

theorem putChain_guarded (len : Word) (r : Nibble) (f : Flagged 16) : s.Guarded i (putChain len r f s) :=
  .quiet rfl rfl

theorem putProduct_guarded (len : Word) (r : Nibble) (p : Full) : s.Guarded i (putProduct len r p s) := .quiet rfl rfl

theorem putProductQuad_guarded (len : Word) (r : Nibble) (p : Quad) : s.Guarded i (putProductQuad len r p s) :=
  .quiet rfl rfl

theorem putLogic_guarded (len : Word) (r : Nibble) (v : Word) : s.Guarded i (putLogic len r v s) := .quiet rfl rfl

theorem putCc_guarded (len : Word) (cc : Cc) : s.Guarded i (putCc len cc s) := .quiet rfl rfl

theorem putByte_guarded (len : Word) (r : Nibble) (v : Word) : s.Guarded i (putByte len r v s) := .quiet rfl rfl

theorem putShift_guarded (len : Word) (r : Nibble) (f : Shifted 16) : s.Guarded i (putShift len r f s) :=
  .quiet rfl rfl

theorem putShiftFull_guarded (r : Nibble) (f : Shifted 32) : s.Guarded i (putShiftFull r f s) := .quiet rfl rfl

theorem putShiftQuad_guarded (r : Nibble) (f : Shifted 64) : s.Guarded i (putShiftQuad r f s) := .quiet rfl rfl

theorem putRotate_guarded (r : Nibble) (v : Full) : s.Guarded i (putRotate r v s) := .quiet rfl rfl

theorem putCoded_guarded (len : Word) (r : Nibble) (v : Word) (cc : Cc) : s.Guarded i (putCoded len r v cc s) :=
  .quiet rfl rfl

theorem cosineSine_guarded (len : Word) (r : Nibble) (w : Full) : s.Guarded i (cosineSine len r w s) := .quiet rfl rfl

theorem branchIf_guarded (taken : Bool) (target len : Word) : s.Guarded i (branchIf taken target len s) := by
  unfold branchIf
  split <;> exact .quiet rfl rfl

theorem setReg_branchIf_guarded (r : Nibble) (v : Word) (taken : Bool) (target len : Word) :
    s.Guarded i (branchIf taken target len (s.setReg r v)) := by
  unfold branchIf
  split <;> exact .quiet rfl rfl

theorem loadMany_guarded (b : Bank) (n : Nat) (r : Nibble) (a len : Word) :
    s.Guarded i ((loadMany b n r a s).advance len) := by
  rw [loadMany_same]; exact .quiet rfl rfl

theorem storeMany_guarded (b : Bank) (n : Nat) (r : Nibble) (a len : Word) :
    s.Guarded i ((storeMany b n r a s).advance len) := by
  rw [storeMany_same]; exact .quiet rfl rfl

theorem arcSineInto_guarded (len : Word) (r1 : Nibble) (z y : Full) : s.Guarded i (arcSineInto len r1 z y s) := by
  unfold arcSineInto
  split <;> exact .quiet rfl rfl

theorem arcTangentInto_guarded (len : Word) (r1 : Nibble) (x y : Full) :
    s.Guarded i (arcTangentInto len r1 x y s) := by
  unfold arcTangentInto
  split
  · exact .quiet rfl rfl
  · split <;> exact .quiet rfl rfl

theorem rootDifferenceInto_guarded (len : Word) (r1 : Nibble) (x y : Full) :
    s.Guarded i (rootDifferenceInto len r1 x y s) := by
  unfold rootDifferenceInto
  dsimp only
  split
  · exact .quiet rfl rfl
  · split <;> exact .quiet rfl rfl

/-- A divide that cannot be done stays in its mode, unless the fault is enabled. -/
theorem divideFault_guarded (len : Word) (h : s.psw.fdfEn = true → s.exits i) :
    s.Guarded i (divideFault len s.drawn) := by
  unfold divideFault
  split
  · next hen => exact .core ⟨_, _, _, _, rfl⟩ (.inr (h hen))
  · exact .quiet rfl rfl

theorem divideHalf_guarded (len : Word) (r1 : Nibble) (d : Word) (h : s.psw.fdfEn = true → s.exits i) :
    s.Guarded i (divideHalf len r1 d s) := by
  unfold divideHalf
  split
  · exact divideFault_guarded len h
  · exact .quiet rfl rfl

theorem divideFull_guarded (len : Word) (r1 : Nibble) (d : Full) (h : s.psw.fdfEn = true → s.exits i) :
    s.Guarded i (divideFull len r1 d s) := by
  unfold divideFull
  split
  · exact divideFault_guarded len h
  · exact .quiet rfl rfl

/-- How a floating-point instruction ends after `u`: the fault, or the next instruction. -/
theorem raiseFloatIf_guarded {raised : Bool} (next len : Word) (h : s.reachesCore u) (hmode : u.psw.prot = s.psw.prot)
    (hraised : raised = true → s.exits i) :
    s.Guarded i (if raised then u.raiseFloat next else u.advance len) := by
  obtain ⟨_, _, _, _, rfl⟩ := h
  split
  · next hr => exact .core ⟨_, _, _, _, rfl⟩ (.inr (hraised hr))
  · exact .quiet rfl (hmode :)

/-- The end of a floating-point instruction stays in its mode, unless the fault is enabled. -/
theorem finishFloat_guarded (len : Word) (r1 : Nibble) (o : FpOutcome) (h : s.psw.fpfEn = true → s.exits i) :
    s.Guarded i (finishFloat len r1 o s) := by
  have hraised : (o.fault && s.psw.fpfEn) = true → s.exits i := fun hand => h (Bool.and_eq_true_iff.1 hand).2
  unfold finishFloat
  cases o.store with
  | none => exact raiseFloatIf_guarded (u := (s.setCc o.cc).drawn) _ _ ⟨_, _, _, _, rfl⟩ rfl hraised
  | some w =>
    exact raiseFloatIf_guarded (u := ((s.setFpReg r1 w).setCc o.cc).drawn) _ _ ⟨_, _, _, _, rfl⟩ rfl hraised

/-! ### The outcomes of shared operations -/

/-- A store, then the next instruction. -/
theorem onNext_stored {o : Out} {len : Word} (h : onNext (fun u => s.reachesCore u ∧ u.psw = s.psw) o) :
    onNext (s.Guarded i) (andThen o fun u => .next (u.advance len)) :=
  onNext_andThen h fun _ hu => onNext_next <| by
    obtain ⟨⟨_, _, _, _, rfl⟩, hpsw⟩ := hu
    exact .quiet rfl (congrArg Psw.prot hpsw :)

/-- An addition to a list, then the next instruction with its Condition Code. -/
theorem onNext_listed {o : Out} {len : Word} {cc : Cc} (h : onNext (fun u => s.reachesCore u ∧ u.psw = s.psw) o) :
    onNext (s.Guarded i) (andThen o fun u => .next ((u.setCc cc).advance len)) :=
  onNext_andThen h fun _ hu => onNext_next <| by
    obtain ⟨⟨_, _, _, _, rfl⟩, hpsw⟩ := hu
    exact .quiet rfl (congrArg Psw.prot hpsw :)

theorem addTop_reachesCore (b : Bank) (a v : Word) :
    onNext (fun u => s.reachesCore u ∧ u.psw = s.psw) (s.addTop b a v) :=
  onNext_require (onNext_guardHalf (onNext_next ⟨⟨_, _, _, _, rfl⟩, rfl⟩))

theorem addBottom_reachesCore (b : Bank) (a v : Word) :
    onNext (fun u => s.reachesCore u ∧ u.psw = s.psw) (s.addBottom b a v) :=
  onNext_require (onNext_guardHalf (onNext_next ⟨⟨_, _, _, _, rfl⟩, rfl⟩))

/-- A privileged instruction is trapped in Protect Mode, else it may reach the devices. -/
theorem onNext_privileged {o : Out} (h : onNext s.reachesDevices o) : onNext (s.Guarded i) (s.privileged o) := by
  intro t e
  obtain ⟨-, htrap⟩ | ⟨hmode, e⟩ := privileged_next.1 e
  · exact .trapped htrap
  · exact .supervisor hmode (h t e)

/-- An operation that reaches the devices at most, then the next instruction. -/
theorem onNext_advanced {o : Out} {len : Word} (h : onNext s.reachesDevices o) :
    onNext s.reachesDevices (andThen o fun u => .next (u.advance len)) :=
  onNext_andThen h fun _ hu => onNext_next (hu.trans ⟨_, _, _, _, _, _, _, rfl⟩)

theorem examineQueue_reachesDevices (h : s.reachesDevices t) : onNext s.reachesDevices t.examineQueue := by
  intro u e
  obtain rfl | rfl := State.examineQueue_next e
  · exact h
  · exact h.trans ⟨_, _, _, _, _, _, _, rfl⟩

theorem serviceAction_reachesDevices (d : Byte) (lc : Word) : onNext s.reachesDevices (s.serviceAction d lc) := by
  intro u e
  obtain ⟨-, rfl⟩ := State.serviceAction_next e
  exact ⟨_, _, _, _, _, _, _, rfl⟩

theorem inputData_reachesDevices {len : Word} {d : Byte} {op : BusOp} {data : Word} {put : Word → State → Out}
    (hput : ∀ v, onNext s.reachesDevices (put v (s.operate d op))) :
    onNext s.reachesDevices (inputData len d op data put s) := by
  refine onNext_andThen (Q := s.reachesDevices) ?_ fun u hu => onNext_next (hu.trans ⟨_, _, _, _, _, _, _, rfl⟩)
  split
  · split
    · exact hput _
    · exact onNext_next ⟨_, _, _, _, _, _, _, rfl⟩
  · exact hput _

theorem readBlock_reachesDevices (d : Byte) (k : Nat) (n : Word) : onNext s.reachesDevices (readBlock d k n s) := by
  intro u e
  obtain ⟨-, hu⟩ := readBlock_next d k n s u e
  exact ⟨_, _, _, _, _, _, _, hu⟩

theorem writeBlock_reachesDevices (d : Byte) (k : Nat) (n : Word) : onNext s.reachesDevices (writeBlock d k n s) :=
  fun u e => ⟨_, _, _, _, _, _, _, writeBlock_next d k n s u e⟩

theorem autoload_reachesDevices (h : s.reachesDevices t) (d : Byte) (k : Nat) (n : Word) :
    onNext s.reachesDevices (autoload d k n t) := by
  intro u e
  obtain ⟨-, hu⟩ := autoload_next d k n t u e
  exact h.trans ⟨_, _, _, _, _, _, _, hu⟩

theorem afterLeader_reachesDevices (h : s.reachesDevices t) (d : Byte) : s.reachesDevices (t.afterLeader d) :=
  h.trans ⟨_, _, _, _, _, _, _, t.afterLeader_eq d⟩

/-! ### The instructions -/

/-- An enabled divide fault is one of the exits of the divides. -/
theorem exits_divide {a b : Nibble} {w : Word}
    (h : i ∈ [Instr.dhr a b, .dh a b w, .ddpr a b, .ddp a b w]) (hen : s.psw.fdfEn = true) : s.exits i :=
  .inr (.inl ⟨hen, a, b, w, h⟩)

/-- An enabled floating-point fault is one of the exits of the floating-point instructions. -/
theorem exits_float {a b : Nibble} {w : Word}
    (h : i ∈ [Instr.ler a b, .le a b w, .aer a b, .ae a b w, .ser a b, .se a b w, .mer a b, .me a b w, .der a b,
      .de a b w]) (hen : s.psw.fpfEn = true) : s.exits i :=
  .inr (.inr ⟨hen, a, b, w, h⟩)

/-- Every instruction, by the shape of its meaning, answers one of the four kinds. -/
theorem exec_guarded (s : State) : ∀ i, onNext (s.Guarded i) (exec i s)
  -- registers, the PSW and the draws
  | .lis .. | .lcs .. | .lhr .. | .lhi .. => onNext_next (loadHalf_guarded ..)
  | .ais .. | .ahr .. | .ahi .. | .sis .. | .shr .. | .shi .. => onNext_next (putHalf_guarded ..)
  | .achr .. | .schr .. => onNext_next (putChain_guarded ..)
  | .nhr .. | .nhi .. | .ohr .. | .ohi .. | .xhr .. | .xhi .. => onNext_next (putLogic_guarded ..)
  | .thi .. | .clhr .. | .clhi .. | .chr .. | .chi .. => onNext_next (putCc_guarded ..)
  | .lbr .. | .stbr .. | .exbr .. => onNext_next (putByte_guarded ..)
  | .slls .. | .slhl .. | .srls .. | .srhl .. | .slha .. | .srha .. => onNext_next (putShift_guarded ..)
  | .lchr .. | .lcnhr .. | .lavr .. => onNext_next (putCoded_guarded ..)
  | .lfr .. | .lf .. | .stf .. | .afr .. | .af .. | .sfr .. | .sf .. | .cfr .. | .cf .. | .mfr .. | .mf .. | .dfr ..
  | .df .. => onNext_next (advance_guarded _)
  | .btbs .. | .btfs .. | .btcr .. | .btc .. | .bfbs .. | .bffs .. | .bfcr .. | .bfc .. =>
    onNext_next (branchIf_guarded ..)
  | .balr .. | .bal .. | .epor .. => onNext_next (.quiet rfl rfl)
  | .ldpr .. => onNext_require (onNext_next (loadFull_guarded ..))
  | .adpr .. | .sdpr .. => onNext_require (onNext_next (putFull_guarded ..))
  | .mhr .. | .mhur .. => onNext_require (onNext_next (putProduct_guarded ..))
  | .mdpr .. => onNext_require (onNext_next (putProductQuad_guarded ..))
  | .cldpr .. | .cdpr .. => onNext_require (onNext_next (putCc_guarded ..))
  | .sll .. | .srl .. | .sla .. | .sra .. => onNext_require (onNext_next (putShiftFull_guarded ..))
  | .slql .. | .srql .. | .slqa .. | .srqa .. => onNext_require (onNext_next (putShiftQuad_guarded ..))
  | .rll .. | .rrl .. => onNext_require (onNext_next (putRotate_guarded ..))
  | .bxh .. | .bxle .. => onNext_require (onNext_next (setReg_branchIf_guarded ..))
  | .eppr .. => onNext_require (onNext_next (.quiet rfl rfl))
  -- the same, with an operand in memory
  | .lh .. | .lh0 .. | .lh1 .. | .lh2 .. | .lh3 .. => onNext_guardHalf (onNext_next (loadHalf_guarded ..))
  | .ah .. | .sh .. => onNext_guardHalf (onNext_next (putHalf_guarded ..))
  | .ach .. | .sch .. => onNext_guardHalf (onNext_next (putChain_guarded ..))
  | .nh .. | .oh .. | .xh .. => onNext_guardHalf (onNext_next (putLogic_guarded ..))
  | .clh .. | .ch .. => onNext_guardHalf (onNext_next (putCc_guarded ..))
  | .lch .. | .lcnh .. | .lav .. => onNext_guardHalf (onNext_next (putCoded_guarded ..))
  | .mh .. | .mhu .. => onNext_require (onNext_guardHalf (onNext_next (putProduct_guarded ..)))
  | .ldp .. => onNext_require (onNext_guardFull (onNext_next (loadFull_guarded ..)))
  | .adp .. | .sdp .. => onNext_require (onNext_guardFull (onNext_next (putFull_guarded ..)))
  | .mdp .. => onNext_require (onNext_guardFull (onNext_next (putProductQuad_guarded ..)))
  | .cldp .. | .cdp .. => onNext_require (onNext_guardFull (onNext_next (putCc_guarded ..)))
  | .lb .. => onNext_guardByte (onNext_next (putByte_guarded ..))
  | .clb .. => onNext_guardByte (onNext_next (putCc_guarded ..))
  | .lm .. => onNext_guardHalves (onNext_next (loadMany_guarded ..))
  -- stores
  | .sth .. | .sth0 .. | .sth1 .. | .sth2 .. | .sth3 .. =>
    onNext_stored (onNext_guardHalf (onNext_next ⟨⟨_, _, _, _, rfl⟩, rfl⟩))
  | .stdp .. | .ste .. => onNext_require (onNext_stored (onNext_guardFull (onNext_next ⟨⟨_, _, _, _, rfl⟩, rfl⟩)))
  | .stb .. => onNext_stored (onNext_guardByte (onNext_next ⟨⟨_, _, _, _, rfl⟩, rfl⟩))
  | .ahm .. => onNext_guardHalf (onNext_next (.quiet rfl rfl))
  | .stm .. => onNext_guardHalves (onNext_next (storeMany_guarded ..))
  -- divides and floating point, which may raise an interrupt
  | .dhr r1 r2 => onNext_require
    (onNext_next (divideHalf_guarded _ _ _ (exits_divide (a := r1) (b := r2) (w := 0) (by simp))))
  | .ddpr r1 r2 => onNext_require
    (onNext_next (divideFull_guarded _ _ _ (exits_divide (a := r1) (b := r2) (w := 0) (by simp))))
  | .dh r1 x2 a2 => onNext_require (onNext_guardHalf
    (onNext_next (divideHalf_guarded _ _ _ (exits_divide (a := r1) (b := x2) (w := a2) (by simp)))))
  | .ddp r1 x2 a2 => onNext_require (onNext_guardFull
    (onNext_next (divideFull_guarded _ _ _ (exits_divide (a := r1) (b := x2) (w := a2) (by simp)))))
  | .ler r1 r2 => onNext_require
    (onNext_next (finishFloat_guarded _ _ _ (exits_float (a := r1) (b := r2) (w := 0) (by simp))))
  | .le r1 x2 a2 => onNext_require (onNext_guardFull
    (onNext_next (finishFloat_guarded _ _ _ (exits_float (a := r1) (b := x2) (w := a2) (by simp)))))
  | .aer r1 r2 | .ser r1 r2 | .mer r1 r2 | .der r1 r2 =>
    onNext_require (onNext_require (onNext_next
      (finishFloat_guarded _ _ _ (exits_float (a := r1) (b := r2) (w := 0) (by simp)))))
  | .ae r1 x2 a2 | .se r1 x2 a2 | .me r1 x2 a2 | .de r1 x2 a2 => onNext_require (onNext_guardFull (onNext_require
    (onNext_next (finishFloat_guarded _ _ _ (exits_float (a := r1) (b := x2) (w := a2) (by simp))))))
  | .cer .. => onNext_require (onNext_require (onNext_next (putCc_guarded ..)))
  | .ce .. => onNext_require (onNext_guardFull (onNext_require (onNext_next (putCc_guarded ..))))
  -- the trigonometric option
  | .ecpr .. => onNext_next (.precision ⟨_, _, rfl⟩ ⟨_, _, _, _, rfl⟩ rfl)
  | .cosr .. => onNext_require (onNext_next (cosineSine_guarded ..))
  | .cos .. => onNext_require (onNext_guardFull (onNext_next (cosineSine_guarded ..)))
  | .asnr .. => onNext_require (onNext_next (arcSineInto_guarded ..))
  | .atnr .. => onNext_require (onNext_next (arcTangentInto_guarded ..))
  | .sqdr .. => onNext_require (onNext_next (rootDifferenceInto_guarded ..))
  | .asn .. => onNext_require (onNext_guardFull (onNext_guardFull (onNext_next (arcSineInto_guarded ..))))
  | .atn .. => onNext_require (onNext_guardFull (onNext_guardFull (onNext_next (arcTangentInto_guarded ..))))
  | .sqd .. => onNext_require (onNext_guardFull (onNext_guardFull (onNext_next (rootDifferenceInto_guarded ..))))
  -- system control
  | .lpsw .. => onNext_privileged (onNext_require (onNext_guardFull
    (examineQueue_reachesDevices ⟨_, _, _, _, _, _, _, rfl⟩)))
  | .epsr .. => onNext_privileged (examineQueue_reachesDevices ⟨_, _, _, _, _, _, _, rfl⟩)
  | .sint .. => onNext_privileged (onNext_require (serviceAction_reachesDevices _ _))
  | .svc .. => onNext_next (.core (supervisorCall_reachesCore ..) (.inr (.inl ⟨_, _, _, rfl⟩)))
  | .sesb .. | .resb .. => onNext_privileged (onNext_require (onNext_next ⟨_, _, _, _, _, _, _, rfl⟩))
  -- input and output
  | .air .. | .ssr .. | .ocr .. | .wdr .. | .whr .. => onNext_privileged (onNext_next ⟨_, _, _, _, _, _, _, rfl⟩)
  | .ai .. | .ss .. | .oc .. | .wd .. =>
    onNext_privileged (onNext_guardByte (onNext_next ⟨_, _, _, _, _, _, _, rfl⟩))
  | .wh .. => onNext_privileged (onNext_guardHalf (onNext_next ⟨_, _, _, _, _, _, _, rfl⟩))
  | .rdr .. | .rhr .. =>
    onNext_privileged (inputData_reachesDevices fun _ => onNext_next ⟨_, _, _, _, _, _, _, rfl⟩)
  | .rd .. => onNext_privileged
    (inputData_reachesDevices fun _ => onNext_guardByte (onNext_next ⟨_, _, _, _, _, _, _, rfl⟩))
  | .rh .. => onNext_privileged (onNext_require
    (inputData_reachesDevices fun _ => onNext_guardHalf (onNext_next ⟨_, _, _, _, _, _, _, rfl⟩)))
  | .rbr .. => onNext_privileged (onNext_require (onNext_advanced (readBlock_reachesDevices _ _ _)))
  | .rb .. => onNext_privileged (onNext_guardFull (onNext_advanced (readBlock_reachesDevices _ _ _)))
  | .wbr .. => onNext_privileged (onNext_require (onNext_advanced (writeBlock_reachesDevices _ _ _)))
  | .wb .. => onNext_privileged (onNext_guardFull (onNext_advanced (writeBlock_reachesDevices _ _ _)))
  | .al .. => onNext_privileged (onNext_require (onNext_ite (onNext_next ⟨_, _, _, _, _, _, _, rfl⟩)
    (onNext_advanced (autoload_reachesDevices (afterLeader_reachesDevices ⟨_, _, _, _, _, _, _, rfl⟩ _) _ _ _))))
  -- lists
  | .atl .. => onNext_guardHeader (onNext_ite (onNext_next (.quiet rfl rfl)) (onNext_listed (addTop_reachesCore _ _ _)))
  | .abl .. =>
    onNext_guardHeader (onNext_ite (onNext_next (.quiet rfl rfl)) (onNext_listed (addBottom_reachesCore _ _ _)))
  | .rtl .. | .rbl .. => onNext_guardHeader (onNext_ite (onNext_next (.quiet rfl rfl))
    (onNext_require (onNext_guardHalf (onNext_next (.quiet rfl rfl)))))

/-- Settles O54: the kinds of answers of all the instructions allow no more than is claimed. -/
theorem guardedState : Obligations.GuardedState := by
  intro i s t hexec
  obtain ⟨hcpr, hsignals, hdevices, hleft⟩ := (exec_guarded s i t hexec).claims
  refine ⟨hcpr, hsignals, hdevices, fun hp hq => ?_⟩
  obtain htrap | hsvc | hfaults := hleft hp hq
  · exact .inr (.inl htrap)
  · exact .inl hsvc
  · exact .inr (.inr hfaults)

end Sys2Proof.Machine
end

section
/-! Circular lists (49_list_trig_augment.md R400 to R405) and the termination queue, which is one (60_exceptions.md
R473): slots and header bytes do not overlap, so what is written to one leaves the other. -/

namespace Sys2Proof.Machine

variable {s t u : State} {b : Bank} {a p v : Word} {r1 x2 : Nibble} {a2 : Word} {n used pointer : Byte} {out : Out}

/-! ### Headers -/

theorem State.guardHeader_pos (h : s.headerOk b a p) : s.guardHeader b a p out = out := by
  obtain ⟨heven, hslots, hused, hpointer⟩ := h
  rw [State.guardHeader, require_pos ((evenAddr_iff a).2 heven), State.guardByte_pos hslots,
    State.guardByte_pos hused, State.guardByte_pos hpointer]

theorem State.guardHeader_odd (h : ¬ isEven a) : s.guardHeader b a p out = .refused .oddAddress :=
  require_neg (evenAddr_eq_false h)

theorem consistent_pos (hused : used.toNat ≤ n.toNat) (hpointer : pointer.toNat < n.toNat) :
    consistent n used pointer out = out := require_pos (decide_eq_true ⟨hused, hpointer⟩)

theorem consistent_neg (h : n.toNat < used.toNat ∨ n.toNat ≤ pointer.toNat) :
    consistent n used pointer out = .refused .listHeader :=
  require_neg (decide_eq_false fun ⟨hused, hpointer⟩ => h.elim (Nat.not_lt.2 hused) (Nat.not_le.2 hpointer))

/-- The wrap of a pointer that moves on is at the maximum slot number. -/
theorem slotAfter_eq (h : pointer.toNat < n.toNat) :
    slotAfter n pointer = if pointer = n - 1 then 0 else pointer + 1 := by
  have hwrap : n.toNat ≤ pointer.toNat + 1 ↔ pointer = n - 1 := by
    constructor <;> intro <;> bv_omega
  simp only [slotAfter, hwrap]

/-- A slot lies past the header, and the list does not reach around the bank. -/
theorem slotAddr_ne_header (a : Word) (i : Byte) {k : Word} (h : k.toNat < 4) :
    a + k ≠ slotAddr a i ∧ a + k ≠ slotAddr a i + 1 := by
  have hi : (i.setWidth 16 : Word).toNat < 256 := by simp only [BitVec.toNat_setWidth]; omega
  unfold slotAddr
  generalize (i.setWidth 16 : Word) = w at hi
  constructor <;> bv_omega

theorem State.byteAt_setSlot (s : State) (b : Bank) (a v : Word) (i : Byte) {k : Word} (h : k.toNat < 4) :
    (s.setHalf b (slotAddr a i) v).byteAt b (a + k) = s.byteAt b (a + k) := by
  obtain ⟨hfirst, hsecond⟩ := slotAddr_ne_header a i h
  exact State.byteAt_setHalf_of_ne v fun ⟨_, he⟩ => he.elim hfirst hsecond

theorem State.slot_setHeader (s : State) (b : Bank) (a : Word) (i v : Byte) {k : Word} (h : k.toNat < 4) :
    (s.setByte b (a + k) v).halfAt b (slotAddr a i) = s.halfAt b (slotAddr a i) := by
  obtain ⟨hfirst, hsecond⟩ := slotAddr_ne_header a i h
  have hkeeps : s.Keeps (s.setByte b (a + k) v) [] fun b' a' => b' = b ∧ a' = a + k :=
    State.Keeps.setByte b (a + k) v ⟨rfl, rfl⟩
  exact hkeeps.halfAt (fun ⟨_, he⟩ => hfirst he.symm) fun ⟨_, he⟩ => hsecond he.symm

/-! ### Two bytes of a header -/

/-- The used count and a pointer of the list at `a` are written. -/
def State.setCounts (s : State) (b : Bank) (a k : Word) (used pointer : Byte) : State :=
  (s.setByte b (a + 1) used).setByte b (a + k) pointer

theorem State.setCounts_used (hm : Memory.wf s.mem = true) {k : Word} (hk : k = 2 ∨ k = 3) :
    (s.setCounts b a k used pointer).byteAt b (a + 1) = used := by
  have hne : ¬(b = b ∧ a + 1 = a + k) := by rintro ⟨-, he⟩; obtain rfl | rfl := hk <;> bv_omega
  exact (State.byteAt_setByte_of_ne _ hne).trans (State.byteAt_setByte_self hm ..)

theorem State.setCounts_pointer (hm : Memory.wf s.mem = true) (k : Word) :
    (s.setCounts b a k used pointer).byteAt b (a + k) = pointer :=
  State.byteAt_setByte_self (State.wf_setByte hm ..) ..

theorem State.setCounts_slot (s : State) (b : Bank) (a : Word) (i : Byte) {k : Word} (hk : k = 2 ∨ k = 3) :
    (s.setCounts b a k used pointer).halfAt b (slotAddr a i) = s.halfAt b (slotAddr a i) := by
  have hlt : k.toNat < 4 := by obtain rfl | rfl := hk <;> decide
  exact (State.slot_setHeader _ b a i pointer hlt).trans (State.slot_setHeader s b a i used (by decide))

theorem State.setCounts_keeps {rs : List Nibble} {m : Bank → Word → Prop} {k : Word} (h1 : m b (a + 1))
    (hk : m b (a + k)) : s.Keeps (s.setCounts b a k used pointer) rs m :=
  (State.Keeps.setByte b (a + 1) used h1).trans (State.Keeps.setByte b (a + k) pointer hk)

/-! ### Additions -/

/-- The bytes that an addition writes: the used count, its pointer, and the slot. -/
def addedBytes (b : Bank) (a place e : Word) (b' : Bank) (a' : Word) : Prop :=
  b' = b ∧ (a' = a + 1 ∨ a' = place ∨ a' = e ∨ a' = e + 1)

/-- An element `v` has been added in `slot`, and the pointer at `place` moved to `pointer`. -/
structure State.Added (s t : State) (b : Bank) (a v : Word) (slot pointer : Byte) (place : Word) : Prop where
  filled : t.halfAt b (slotAddr a slot) = v
  counted : t.byteAt b (a + 1) = s.byteAt b (a + 1) + 1
  moved : t.byteAt b place = pointer
  psw : t.psw = s.psw
  keeps : s.Keeps t [] (addedBytes b a place (slotAddr a slot))

theorem keeps_setSlot (s : State) (b : Bank) (a v place : Word) (slot : Byte) :
    s.Keeps (s.setHalf b (slotAddr a slot) v) [] (addedBytes b a place (slotAddr a slot)) :=
  State.Keeps.setHalf b _ v ⟨rfl, .inr (.inr (.inl rfl))⟩ ⟨rfl, .inr (.inr (.inr rfl))⟩

theorem keeps_setCounts (s : State) (b : Bank) (a k e : Word) (used pointer : Byte) :
    s.Keeps (s.setCounts b a k used pointer) [] (addedBytes b a (a + k) e) :=
  State.setCounts_keeps ⟨rfl, .inl rfl⟩ ⟨rfl, .inr (.inl rfl)⟩

/-- An addition at the top moves the pointer back, then fills the slot it has come to (R402). -/
theorem addTop_added (hm : Memory.wf s.mem = true) (hused : (s.byteAt b (a + 1)).toNat < (s.byteAt b a).toNat)
    (htop : (s.byteAt b (a + 2)).toNat < (s.byteAt b a).toNat)
    (hok : s.halfOk b (slotAddr a (slotBefore (s.byteAt b a) (s.byteAt b (a + 2))))) :
    ∃ t, s.addTop b a v = .next t ∧
      s.Added t b a v (slotBefore (s.byteAt b a) (s.byteAt b (a + 2)))
        (slotBefore (s.byteAt b a) (s.byteAt b (a + 2))) (a + 2) := by
  have hnext : s.addTop b a v = .next ((s.setCounts b a 2 (s.byteAt b (a + 1) + 1)
      (slotBefore (s.byteAt b a) (s.byteAt b (a + 2)))).setHalf b
        (slotAddr a (slotBefore (s.byteAt b a) (s.byteAt b (a + 2)))) v) :=
    (consistent_pos hused.le htop).trans (State.guardHalf_pos hok)
  have hwf {pointer : Byte} : Memory.wf (s.setCounts b a 2 (s.byteAt b (a + 1) + 1) pointer).mem = true :=
    State.wf_setByte (State.wf_setByte hm ..) ..
  exact ⟨_, hnext,
    { filled := State.halfAt_setHalf_self hwf ..
      counted := (State.byteAt_setSlot _ b a v _ (by decide)).trans (State.setCounts_used hm (.inl rfl))
      moved := (State.byteAt_setSlot _ b a v _ (by decide)).trans (State.setCounts_pointer hm 2)
      psw := rfl
      keeps := (keeps_setCounts s b a 2 _ _ _).trans (keeps_setSlot ..) }⟩

/-- An addition at the bottom fills the slot of the pointer, then moves it on (R403). -/
theorem addBottom_added (hm : Memory.wf s.mem = true) (hused : (s.byteAt b (a + 1)).toNat < (s.byteAt b a).toNat)
    (hbot : (s.byteAt b (a + 3)).toNat < (s.byteAt b a).toNat)
    (hok : s.halfOk b (slotAddr a (s.byteAt b (a + 3)))) :
    ∃ t, s.addBottom b a v = .next t ∧
      s.Added t b a v (s.byteAt b (a + 3)) (slotAfter (s.byteAt b a) (s.byteAt b (a + 3))) (a + 3) := by
  have hnext : s.addBottom b a v = .next ((s.setHalf b (slotAddr a (s.byteAt b (a + 3))) v).setCounts b a 3
      (s.byteAt b (a + 1) + 1) (slotAfter (s.byteAt b a) (s.byteAt b (a + 3)))) :=
    (consistent_pos hused.le hbot).trans (State.guardHalf_pos hok)
  exact ⟨_, hnext,
    { filled := (State.setCounts_slot _ b a _ (.inr rfl)).trans (State.halfAt_setHalf_self hm ..)
      counted := State.setCounts_used (State.wf_setHalf hm ..) (.inr rfl)
      moved := State.setCounts_pointer (State.wf_setHalf hm ..) 3
      psw := rfl
      keeps := (keeps_setSlot ..).trans (keeps_setCounts _ b a 3 _ _ _) }⟩

theorem addTop_inconsistent
    (h : (s.byteAt b a).toNat < (s.byteAt b (a + 1)).toNat ∨ (s.byteAt b a).toNat ≤ (s.byteAt b (a + 2)).toNat) :
    s.addTop b a v = .refused .listHeader := consistent_neg h

theorem addBottom_inconsistent
    (h : (s.byteAt b a).toNat < (s.byteAt b (a + 1)).toNat ∨ (s.byteAt b a).toNat ≤ (s.byteAt b (a + 3)).toNat) :
    s.addBottom b a v = .refused .listHeader := consistent_neg h

/-- How ATL and ABL go on once the header is read: the overflow of a full list, else an addition `o`. -/
def State.listAdds (s : State) (b : Bank) (a : Word) (o : Out) : Out :=
  if s.byteAt b (a + 1) = s.byteAt b a then .next ((s.setCc listOverCc).advance len4)
  else andThen o fun t => .next ((t.setCc (ccRow false false false false)).advance len4)

theorem exec_atl (h : s.headerOk s.psw.obank (s.ea x2 a2) (s.ea x2 a2 + 2)) :
    exec (.atl r1 x2 a2) s =
      s.listAdds s.psw.obank (s.ea x2 a2) (s.addTop s.psw.obank (s.ea x2 a2) (s.reg r1)) :=
  State.guardHeader_pos h

theorem exec_abl (h : s.headerOk s.psw.obank (s.ea x2 a2) (s.ea x2 a2 + 3)) :
    exec (.abl r1 x2 a2) s =
      s.listAdds s.psw.obank (s.ea x2 a2) (s.addBottom s.psw.obank (s.ea x2 a2) (s.reg r1)) :=
  State.guardHeader_pos h

theorem listAdds_full (h : s.byteAt b (a + 1) = s.byteAt b a) :
    s.listAdds b a out = .next ((s.setCc listOverCc).advance len4) := if_pos h

theorem listAdds_next (h : s.byteAt b (a + 1) ≠ s.byteAt b a) (ho : out = .next t) :
    s.listAdds b a out = .next ((t.setCc (ccRow false false false false)).advance len4) := by
  rw [ho]; exact if_neg h

theorem listAdds_refused {r : Refusal} (h : s.byteAt b (a + 1) ≠ s.byteAt b a) (ho : out = .refused r) :
    s.listAdds b a out = .refused r := by
  rw [ho]; exact if_neg h

/-- Settles O37: a list that is not full takes the element, by the addition at its end. -/
theorem listAdd : Obligations.ListAdd := by
  intro s r1 x2 a2 hm b a n used top bot adds overflows
  have ne_of_lt (h : used.toNat < n.toNat) : used ≠ n := fun he => absurd h (he ▸ Nat.lt_irrefl _)
  have full {i : Instr} {o : Out} (hexec : exec i s = s.listAdds b a o) (h : used = n) : overflows i :=
    ⟨_, hexec.trans (listAdds_full h), State.setsCc_set rfl⟩
  have added {i : Instr} {o : Out} {slot pointer : Byte} {place : Word} (hexec : exec i s = s.listAdds b a o)
      (hlt : used.toNat < n.toNat) (ho : ∃ t, o = .next t ∧ s.Added t b a (s.reg r1) slot pointer place) :
      adds i slot pointer place := by
    obtain ⟨t, ht, h⟩ := ho
    refine ⟨_, hexec.trans (listAdds_next (ne_of_lt hlt) ht), h.filled, h.counted, h.moved, rfl, ?_,
      h.keeps.of_eq rfl rfl rfl⟩
    rw [State.ccAndLc, ← h.psw]
    rfl
  refine ⟨fun hok => ⟨full (exec_atl hok), fun hlt htop hslot => ?atl, fun hne h => ?atlRefused⟩,
    fun hok => ⟨full (exec_abl hok), fun hlt hbot hslot => ?abl, fun hne h => ?ablRefused⟩, fun hodd => ?odd⟩
  case atl => exact added (exec_atl hok) hlt (addTop_added hm hlt htop hslot)
  case abl => exact slotAfter_eq hbot ▸ added (exec_abl hok) hlt (addBottom_added hm hlt hbot hslot)
  case atlRefused => exact (exec_atl hok).trans (listAdds_refused hne (addTop_inconsistent h))
  case ablRefused => exact (exec_abl hok).trans (listAdds_refused hne (addBottom_inconsistent h))
  case odd => exact List.forall_iff_forall_mem.1 ⟨State.guardHeader_odd hodd, State.guardHeader_odd hodd⟩

/-! ### Removals -/

/-- How RTL and RBL go on once the header is read: the underflow of an empty list, else the element of `slot` to R1 and
the pointer at `a + k` moved from `old` to `new`. -/
def State.listTakes (s : State) (r1 : Nibble) (b : Bank) (a k : Word) (old slot new : Byte) : Out :=
  if s.byteAt b (a + 1) = 0 then .next ((s.setCc listOverCc).advance len4)
  else consistent (s.byteAt b a) (s.byteAt b (a + 1)) old (s.readHalf b (slotAddr a slot) fun v =>
    .next ((((s.setReg r1 v).setCounts b a k (s.byteAt b (a + 1) - 1) new).setCc
      (removedCc (s.byteAt b (a + 1)))).advance len4))

theorem exec_rtl (h : s.headerOk s.psw.obank (s.ea x2 a2) (s.ea x2 a2 + 2)) :
    exec (.rtl r1 x2 a2) s =
      s.listTakes r1 s.psw.obank (s.ea x2 a2) 2 (s.byteAt s.psw.obank (s.ea x2 a2 + 2))
        (s.byteAt s.psw.obank (s.ea x2 a2 + 2))
        (slotAfter (s.byteAt s.psw.obank (s.ea x2 a2)) (s.byteAt s.psw.obank (s.ea x2 a2 + 2))) :=
  State.guardHeader_pos h

theorem exec_rbl (h : s.headerOk s.psw.obank (s.ea x2 a2) (s.ea x2 a2 + 3)) :
    exec (.rbl r1 x2 a2) s =
      s.listTakes r1 s.psw.obank (s.ea x2 a2) 3 (s.byteAt s.psw.obank (s.ea x2 a2 + 3))
        (slotBefore (s.byteAt s.psw.obank (s.ea x2 a2)) (s.byteAt s.psw.obank (s.ea x2 a2 + 3)))
        (slotBefore (s.byteAt s.psw.obank (s.ea x2 a2)) (s.byteAt s.psw.obank (s.ea x2 a2 + 3))) :=
  State.guardHeader_pos h

/-- G after a removal: another element than the one removed was in the list (R404). -/
theorem removedCc_eq (used : Byte) : removedCc used = ⟨false, false, decide (used ≠ 1), false⟩ := by
  have hlast : used - 1 = 0 ↔ used = 1 := by constructor <;> intro <;> bv_omega
  simp only [removedCc, ccRow, hlast, beq_eq_decide, ne_eq, decide_not]

/-- Settles O38: a list that is not empty gives its element to R1, and only its own pointer moves. -/
theorem listRemove : Obligations.ListRemove := by
  intro s r1 x2 a2 hm b a n used top bot takes underflows
  have empty {i : Instr} {k : Word} {old slot new : Byte} (hexec : exec i s = s.listTakes r1 b a k old slot new)
      (h : used = 0) : underflows i := ⟨_, hexec.trans (if_pos h), State.setsCc_set rfl⟩
  have taken {i : Instr} {k : Word} {old slot new : Byte} (hexec : exec i s = s.listTakes r1 b a k old slot new)
      (hk : k = 2 ∨ k = 3) (hne : used ≠ 0) (hused : used.toNat ≤ n.toNat) (hold : old.toNat < n.toNat)
      (hok : s.halfOk b (slotAddr a slot)) : takes i slot new (a + k) := by
    have hkeeps : s.Keeps ((s.setReg r1 (s.halfAt b (slotAddr a slot))).setCounts b a k (used - 1) new) [r1]
        fun b' a' => b' = b ∧ (a' = a + 1 ∨ a' = a + k) :=
      (State.Keeps.setReg r1 _ (List.mem_singleton.2 rfl)).trans
        (State.setCounts_keeps ⟨rfl, .inl rfl⟩ ⟨rfl, .inr rfl⟩)
    exact ⟨_, hexec.trans ((if_neg hne).trans ((consistent_pos hused hold).trans (State.guardHalf_pos hok))),
      State.reg_setReg_self .., State.setCounts_used (s := s.setReg r1 _) hm hk,
      State.setCounts_pointer (s := s.setReg r1 _) hm k, removedCc_eq used, rfl, hkeeps.of_eq rfl rfl rfl⟩
  have refused {i : Instr} {k : Word} {old slot new : Byte} (hexec : exec i s = s.listTakes r1 b a k old slot new)
      (hne : used ≠ 0) (h : n.toNat < used.toNat ∨ n.toNat ≤ old.toNat) : exec i s = .refused .listHeader :=
    hexec.trans ((if_neg hne).trans (consistent_neg h))
  refine ⟨fun hok => ⟨empty (exec_rtl hok), fun hne hused htop hslot => ?rtl, refused (exec_rtl hok)⟩,
    fun hok => ⟨empty (exec_rbl hok), fun hne hused hbot hslot => ?rbl, refused (exec_rbl hok)⟩, fun hodd => ?odd⟩
  case rtl => exact slotAfter_eq htop ▸ taken (exec_rtl hok) (.inl rfl) hne hused htop hslot
  case rbl => exact taken (exec_rbl hok) (.inr rfl) hne hused hbot hslot
  case odd => exact List.forall_iff_forall_mem.1 ⟨State.guardHeader_odd hodd, State.guardHeader_odd hodd⟩

/-! ### The termination queue -/

/-- A channel's pointer in a processor that runs, once the header of the queue is read (60_exceptions.md R473). -/
theorem State.terminateChannel_pos (hr : s.power = .running) (hq : s.halfOk 0 s.params.qptrLoc)
    (h0 : s.byteOk 0 s.queueAddr) (h1 : s.byteOk 0 (s.queueAddr + 1)) (p : Word) (e : QueueEnd) :
    s.terminateChannel p e =
      if s.byteAt 0 (s.queueAddr + 1) = s.byteAt 0 s.queueAddr then .next (s.setHalf 0 0x008A p).raiseOverflow
      else match e with
        | .top => s.guardHeader 0 s.queueAddr (s.queueAddr + 2) (s.addTop 0 s.queueAddr p)
        | .bottom => s.guardHeader 0 s.queueAddr (s.queueAddr + 3) (s.addBottom 0 s.queueAddr p) := by
  rw [State.terminateChannel, if_pos hr]
  exact (State.guardHalf_pos hq).trans ((State.guardByte_pos h1).trans (State.guardByte_pos h0))

/-- The overflow of the queue: the pointer at 8A, then the exchange between 8C and 90 beside it. -/
theorem State.overflow_stores (hm : Memory.wf s.mem = true) (p : Word) :
    let t := (s.setHalf 0 0x008A p).raiseOverflow
    t.halfAt 0 0x008A = p ∧ t.halfAt 0 0x008C = s.psw.status ∧ t.halfAt 0 0x008E = s.psw.lc ∧
      t.psw.status = s.halfAt 0 0x0090 ∧ t.psw.lc = s.halfAt 0 0x0092 ∧ s.Keeps t [] (span 0 0x008A 6) := by
  have hset : s.Keeps (s.setHalf 0 0x008A p) [] (span 0 0x008A 2) := State.Keeps.storeHalf 0 0x008A p
  obtain ⟨hold, holdLc, hstatus, hlc, hexchange⟩ :=
    State.swapped_exchange (State.wf_setHalf hm 0 0x008A p) 0x008C 0x0090 s.psw.lc (by decide)
  rw [show (s.setHalf 0 0x008A p).raiseOverflow = (s.setHalf 0 0x008A p).exchange 0x008C 0x0090 s.psw.lc from rfl]
  -- From here on only what is known of the exchange matters; spelt out, the unifier would evaluate it.
  generalize (s.setHalf 0 0x008A p).exchange 0x008C 0x0090 s.psw.lc = t at *
  refine ⟨?pointer, hold, holdLc, hstatus.trans ?status, hlc.trans ?lc, ?keeps⟩
  case pointer =>
    exact (hexchange.halfAt (by unfold span; decide) (by unfold span; decide)).trans (State.halfAt_setHalf_self hm ..)
  case status | lc => exact hset.halfAt (by unfold span; decide) (by unfold span; decide)
  case keeps =>
    exact (hset.mono (fun _ h => h) fun _ _ ⟨hb, hlt⟩ => ⟨hb, hlt.trans (by decide)⟩).trans
      (hexchange.mono (fun _ h => h) fun _ a ⟨hb, hlt⟩ => ⟨hb, by bv_omega⟩)

/-- Settles O52: the queue is a list, whose addition leaves the PSW; a full one overflows. -/
theorem channelTerminate : Obligations.ChannelTerminate := by
  intro s p hm q n used top bot adds
  have added {e : QueueEnd} {slot pointer : Byte} {place : Word}
      (h : s.halfOk 0 (slotAddr q slot) → ∃ t, s.terminateChannel p e = .next t ∧ s.Added t 0 q p slot pointer place) :
      adds e slot pointer place := fun hok => by
    obtain ⟨t, ht, h⟩ := h hok
    exact ⟨t, ht, h.psw, h.filled, h.counted, h.moved, h.keeps⟩
  refine ⟨fun hr hq => ⟨fun hok hfull e => ?full, fun hlt => ⟨fun hok htop => added fun hslot => ?top,
    fun hok hbot => added fun hslot => ?bottom⟩⟩, fun hr e => ?stopped⟩
  case full =>
    have h0 : s.byteOk 0 q := by simpa using hok 0 (by decide)
    exact ⟨_, (State.terminateChannel_pos hr hq h0 (hok 1 (by decide)) p e).trans (if_pos hfull),
      State.overflow_stores hm p⟩
  case top =>
    obtain ⟨-, h0, h1, -⟩ := id hok
    have hne : used ≠ n := fun he => absurd hlt (he ▸ Nat.lt_irrefl _)
    rw [State.terminateChannel_pos hr hq h0 h1]
    obtain ⟨t, ht, hadded⟩ := addTop_added (v := p) hm hlt htop hslot
    exact ⟨t, (if_neg hne).trans ((State.guardHeader_pos hok).trans ht), hadded⟩
  case bottom =>
    obtain ⟨-, h0, h1, -⟩ := id hok
    have hne : used ≠ n := fun he => absurd hlt (he ▸ Nat.lt_irrefl _)
    rw [State.terminateChannel_pos hr hq h0 h1, ← slotAfter_eq hbot]
    obtain ⟨t, ht, hadded⟩ := addBottom_added (v := p) hm hlt hbot hslot
    exact ⟨t, (if_neg hne).trans ((State.guardHeader_pos hok).trans ht), hadded⟩
  case stopped => exact if_neg hr

end Sys2Proof.Machine
end

section
/-! The host events of a boundary, in their order, and what each of them does (60_exceptions.md R452, R459, R474,
R489). -/

namespace Sys2Proof.Machine

variable {s t : State} {e : HostEvent} {es : List HostEvent}

/-! ### The events of a boundary -/

theorem State.deliverAll_cons_next (h : s.deliver e = .next t) : s.deliverAll (e :: es) = t.deliverAll es := by
  rw [State.deliverAll, h]; rfl

theorem State.deliverAll_cons_refused {r : Refusal} (h : s.deliver e = .refused r) :
    s.deliverAll (e :: es) = .refused r := by
  rw [State.deliverAll, h]; rfl

/-- A refused event stops the step. -/
theorem step_refused_of_deliverAll {r : Refusal} (h : s.begun.deliverAll (s.arrivals.headD []) = .refused r) :
    step s = .refused r := by
  show andThen _ _ = _
  rw [show State.deliverAll { s with arrivals := s.arrivals.tail } (s.arrivals.headD []) = .refused r from h]
  rfl

/-- The step of a state with no event due is what the processor does in its mode, whatever was to come before. -/
theorem step_no_event (t : State) : step { t with arrivals := [] :: t.arrivals } = t.act exec :=
  step_of_no_event rfl

/-- What a step does with the list of its boundary. -/
theorem step_events {rest : List (List HostEvent)} (h : s.arrivals = es :: rest) :
    (∀ r, s.begun.deliverAll es = .refused r → step s = .refused r) ∧
    (∀ t, s.begun.deliverAll es = .next t → t.arrivals = rest ∧ (t.power ≠ s.power → step s = .next t) ∧
      (t.power = s.power → step s = step { t with arrivals := [] :: rest })) := by
  have hhead : s.arrivals.headD [] = es := by rw [h]; rfl
  refine ⟨fun r hr => step_refused_of_deliverAll (hhead ▸ hr), fun t ht => ?_⟩
  have hrest : t.arrivals = rest := (State.deliverAll_arrivals ht).trans (by rw [State.begun, h]; rfl)
  have hstep := step_of_deliverAll (s := s) (t := t) (hhead ▸ ht)
  refine ⟨hrest, fun hne => hstep.trans (if_neg hne), fun heq => hstep.trans ?_⟩
  rw [if_pos heq, ← hrest, step_no_event]

/-! ### Requests and answers -/

theorem le_chain_of_mem {lo : Nat} {l : List Request} (h : chainFrom lo l = true) {q : Request} (hq : q ∈ l) :
    lo ≤ q.chain := by
  induction l generalizing lo with
  | nil => cases hq
  | cons r rest ih =>
    obtain ⟨hr, hrest⟩ := chainFrom_cons.1 h
    obtain rfl | hmem := List.mem_cons.1 hq
    · exact hr
    · exact hr.trans (Nat.le_of_succ_le (ih hrest hmem))

/-- On a chain in order a request joins, in place of one at its position (R474). -/
theorem mem_insertRequest {lo : Nat} {l : List Request} (h : chainFrom lo l = true) (r q : Request) :
    q ∈ insertRequest r l ↔ q = r ∨ (q ∈ l ∧ q.chain ≠ r.chain) := by
  induction l generalizing lo with
  | nil => simp [insertRequest]
  | cons p rest ih =>
    obtain ⟨-, hrest⟩ := chainFrom_cons.1 h
    have hafter (hq : q ∈ rest) : p.chain < q.chain := le_chain_of_mem hrest hq
    rw [insertRequest]
    split
    · next hlt =>
      have hother (hq : q ∈ p :: rest) : q.chain ≠ r.chain := by
        obtain rfl | hmem := List.mem_cons.1 hq
        · omega
        · have := hafter hmem; omega
      rw [List.mem_cons (a := q) (b := r)]
      exact or_congr_right ⟨fun hq => ⟨hq, hother hq⟩, fun hq => hq.1⟩
    · split
      · next heq =>
        rw [List.mem_cons, List.mem_cons]
        refine or_congr_right ⟨fun hq => ⟨.inr hq, ?_⟩, fun ⟨hq, hne⟩ => hq.resolve_left ?_⟩
        · have := hafter hq; omega
        · rintro rfl; exact hne heq.symm
      · next hne =>
        have hp : q = p → q.chain ≠ r.chain := by rintro rfl; omega
        rw [List.mem_cons, ih hrest, List.mem_cons]
        tauto

theorem withdrawRequest_eq_filter (k : Nat) (l : List Request) :
    withdrawRequest k l = l.filter fun q => q.chain != k := by
  induction l with
  | nil => rfl
  | cons q rest ih =>
    rw [withdrawRequest, List.filter_cons, ih]
    by_cases h : q.chain = k <;> simp [h]

/-- An answer made ready is the last of its device (48_io.md R363, log 18). -/
theorem answers_append (s : State) (r : Reply) (d : Byte) :
    State.answers { s with replies := s.replies ++ [r] } d = s.answers d ++ if r.device == d then [r] else [] := by
  rw [State.answers, List.filter_append, List.filter_singleton]
  cases r.device == d <;> rfl

/-! ### The clocks -/

/-- After `n` milliseconds the Real-Time clock is `n` higher, modulo its period, and the Elapsed Time clock `n` lower
(R489). -/
theorem deliverAll_ticks (n : Nat) (h : s.rtc < rtcPeriod) : s.deliverAll (List.replicate n .tick) =
    .next { s with rtc := (s.rtc + n) % rtcPeriod, etc := s.etc - n } := by
  induction n generalizing s with
  | zero =>
    rw [Nat.add_zero, Nat.mod_eq_of_lt h, Int.natCast_zero, Int.sub_zero]
    rfl
  | succ n ih =>
    have hrtc : (s.tick.rtc + n) % rtcPeriod = (s.rtc + (n + 1)) % rtcPeriod := by
      rw [State.tick_rtc, Nat.mod_add_mod, Nat.add_assoc, Nat.add_comm 1 n]
    have hetc : s.tick.etc - n = s.etc - (n + 1 : Nat) := by rw [State.tick_etc]; omega
    rw [List.replicate_succ, State.deliverAll_cons_next (t := s.tick) rfl,
      ih (s := s.tick) (Nat.mod_lt _ (by decide)), hrtc, hetc]
    rfl

/-! ### The obligation -/

/-- Settles O53: the boundary takes up its list event by event, and each event is one update of the state. -/
theorem hostEvents : Obligations.HostEvents := by
  intro s moves
  refine ⟨fun es rest h => step_events h, rfl, fun e es => ⟨fun t h => State.deliverAll_cons_next h, fun r h =>
    State.deliverAll_cons_refused h⟩, ?request, ?dropRequest, ?reply, rfl, rfl, rfl, ?dmaWrite, rfl, ?powerOff, ?tick⟩
  case request =>
    exact fun r h => ⟨_, rfl, chainFrom_insertRequest (Nat.zero_le _) h, mem_insertRequest h r⟩
  case dropRequest =>
    intro k
    rw [← withdrawRequest_eq_filter]
    rfl
  case reply =>
    refine fun r => ⟨_, rfl, rfl, ?_, fun d hd => ?_⟩
    · rw [answers_append, beq_self_eq_true, if_pos rfl]
    · rw [answers_append, beq_eq_false_iff_ne.2 hd.symm, if_neg Bool.false_ne_true, List.append_nil]
  case dmaWrite =>
    exact fun b a v => ⟨State.guardByte_absent, fun hok hm => ⟨_, State.writeByte_pos v hok,
      State.byteAt_setByte_self hm b a v, rfl, State.Keeps.storeByte b a v⟩⟩
  case powerOff => exact ⟨_, rfl, s.wf_freeMemory, rfl⟩
  case tick => exact fun h n => deliverAll_ticks n h

end Sys2Proof.Machine
end

section
/-! The boundary between two instructions (60_exceptions.md R451, R452, R475): one of the pending conditions is taken,
with at most a draw spent on the choice; then what the procedure of each does (R460, R468 to R471). -/

namespace Sys2Proof.Machine

variable {s u : State}

/-! ### The choice among the pending conditions -/

/-- A state with at most a draw spent. -/
def State.maybeDrawn (s u : State) : Prop := u = s ∨ u = s.drawn

theorem State.boundary_quiet {run : Instr → State → Out} (hq : s.psw.ctEn = true → s.queueOk) (h : s.pending = []) :
    s.boundary run = if s.psw.wait then .next s else s.fetch run := by
  rw [State.boundary, State.guardQueue_pos hq, h]

/-- Of several pending conditions one is taken (R475, log 14). -/
theorem State.boundary_takes {run : Instr → State → Out} (hq : s.psw.ctEn = true → s.queueOk) (h : s.pending ≠ []) :
    ∃ c ∈ s.pending, ∃ u, s.maybeDrawn u ∧ s.boundary run = u.takeInterrupt c := by
  rw [State.boundary, State.guardQueue_pos hq]
  match hp : s.pending, h with
  | [c], _ => exact ⟨c, List.mem_singleton.2 rfl, s, .inl rfl, rfl⟩
  | c :: d :: rest, _ =>
    have hlt : (s.freeFull 1).toNat % ((d :: rest).length + 1) < (c :: d :: rest).length :=
      Nat.mod_lt _ (Nat.succ_pos _)
    refine ⟨_, ?_, s.drawn, .inr rfl, rfl⟩
    rw [List.getD_eq_getElem _ _ hlt]
    exact List.getElem_mem hlt

/-! ### The procedures -/

/-- An exchange at the boundary stores the PSW there is, whether a draw was spent or not. -/
theorem State.maybeDrawn.swapped (h : s.maybeDrawn u) (hm : Memory.wf s.mem = true) (old new : Word)
    (hnew : (new - old).toNat = 4) :
    s.swapped (u.exchange old new u.psw.lc) s.psw.status s.psw.lc old new := by
  have hswap := State.swapped_exchange hm old new s.psw.lc hnew
  obtain rfl | rfl := h
  · exact hswap
  · exact hswap.drawn

/-! The malfunction signals are no part of an exchange. -/

theorem State.exchange_apfPending_set (s : State) (old new lc : Word) (v : Bool) :
    State.exchange { s with apfPending := v } old new lc = { s.exchange old new lc with apfPending := v } := rfl

theorem State.exchange_parityInstr_set (s : State) (old new lc : Word) (v : Bool) :
    State.exchange { s with parityInstr := v } old new lc = { s.exchange old new lc with parityInstr := v } := rfl

theorem State.exchange_parityOperand_set (s : State) (old new lc : Word) (v : Bool) :
    State.exchange { s with parityOperand := v } old new lc = { s.exchange old new lc with parityOperand := v } := rfl

theorem State.takeInterrupt_powerFailure (s : State) :
    let u := s.raiseMalfunction
    s.takeInterrupt .powerFailure =
      .next { u with apfPending := false, psw := { u.psw with cc := { u.psw.cc with l := true } } } := by
  simp only [State.takeInterrupt, State.raiseMalfunction, State.exchange_apfPending_set]
  rfl

theorem State.takeInterrupt_parityInstr (s : State) :
    let u := s.raiseMalfunction
    s.takeInterrupt .parityInstr =
      .next { u with parityInstr := false, psw := { u.psw with cc := { u.psw.cc with g := true } } } := by
  simp only [State.takeInterrupt, State.raiseMalfunction, State.exchange_parityInstr_set]
  rfl

theorem State.takeInterrupt_parityOperand (s : State) :
    let u := s.raiseMalfunction
    s.takeInterrupt .parityOperand =
      .next { u with parityOperand := false, psw := { u.psw with cc := { u.psw.cc with v := true } } } := by
  simp only [State.takeInterrupt, State.raiseMalfunction, State.exchange_parityOperand_set]
  rfl

/-- The Service Pointer of a device (20_memory.md R73). -/
theorem State.servicePointer_eq (s : State) (d : Byte) :
    s.servicePointer d = s.halfAt 0 (0x00D0 + 2 * d.setWidth 16) := by
  rw [State.servicePointer, BitVec.shiftLeft_eq_mul_twoPow, BitVec.mul_comm]
  rfl

/-- The Immediate Interrupt acknowledges the first request and follows its Service Pointer `sp` (R469, R470). -/
theorem State.takeImmediate_enters {q : Request} {rest : List Request} {sp : Word} (hm : Memory.wf s.mem = true)
    (hreq : s.requests = q :: rest) (hsp : s.halfAt 0 (0x00D0 + 2 * q.device.setWidth 16) = sp) :
    (¬ isEven sp → s.takeImmediate = .refused .channelService) ∧
    (s.halvesOk 0 3 sp → ∃ t, s.takeImmediate = .next t ∧ t.requests = rest ∧ t.halfAt 0 sp = s.psw.status ∧
      t.halfAt 0 (sp + 2) = s.psw.lc ∧ t.psw.status = s.halfAt 0 (sp + 4) ∧ t.psw.lc = sp + 6 ∧
      s.Keeps { t with requests := s.requests } [] (span 0 sp 4)) := by
  have htake : s.takeImmediate = require (evenAddr sp) .channelService
      (s.guardHalves 0 3 sp (.next (s.acknowledged.immediateEntry sp s.psw.lc))) := by
    rw [State.takeImmediate, hreq, ← hsp, ← s.servicePointer_eq]
    rfl
  rw [htake]
  refine ⟨fun hodd => require_neg (evenAddr_eq_false hodd), fun hok => ?_⟩
  obtain ⟨⟨heven, -⟩, -⟩ := State.halvesOk_succ.1 hok
  obtain ⟨hold, holdLc, hstatus, -, hkeeps⟩ :=
    State.swapped_exchange (s := s.acknowledged) hm sp (sp + 4) s.psw.lc (by simp)
  refine ⟨_, (require_pos ((evenAddr_iff sp).2 heven)).trans (State.guardHalves_pos hok), ?_⟩
  rw [State.immediateEntry_eq]
  exact ⟨congrArg List.tail hreq, hold, holdLc, hstatus, rfl, State.Keeps.acknowledge (hkeeps.setLc _)⟩

/-- The Immediate Interrupt with at most a draw spent on the choice. -/
theorem State.maybeDrawn.takeImmediate (h : s.maybeDrawn u) {q : Request} {rest : List Request} {sp : Word}
    (hm : Memory.wf s.mem = true) (hreq : s.requests = q :: rest)
    (hsp : s.halfAt 0 (0x00D0 + 2 * q.device.setWidth 16) = sp) :
    (¬ isEven sp → u.takeImmediate = .refused .channelService) ∧
    (s.halvesOk 0 3 sp → ∃ t, u.takeImmediate = .next t ∧ t.requests = rest ∧ t.halfAt 0 sp = s.psw.status ∧
      t.halfAt 0 (sp + 2) = s.psw.lc ∧ t.psw.status = s.halfAt 0 (sp + 4) ∧ t.psw.lc = sp + 6 ∧
      s.Keeps { t with requests := s.requests } [] (span 0 sp 4)) := by
  obtain rfl | rfl := h
  · exact State.takeImmediate_enters hm hreq hsp
  · obtain ⟨hodd, hok⟩ := State.takeImmediate_enters (s := s.drawn) hm hreq hsp
    refine ⟨hodd, fun h => ?_⟩
    obtain ⟨t, ht, hrest, hold, holdLc, hstatus, hlc, hkeeps⟩ := hok h
    have hdrawn : s.Keeps s.drawn [] (span 0 sp 4) := (State.Keeps.refl s _ _).of_eq rfl rfl rfl
    have hboth := hdrawn.trans hkeeps
    exact ⟨t, ht, hrest, hold, holdLc, hstatus, hlc, hboth⟩

/-! ### The obligation -/

/-- The parity signals apart, the state at a boundary is the one before its list of events was taken up. -/
theorem State.begun_dropMasked_eq (s : State) : s.begun.dropMasked =
    { s.begun with parityInstr := s.psw.mmEn && s.parityInstr, parityOperand := s.psw.mmEn && s.parityOperand } :=
  s.begun.dropMasked_eq

/-- Settles O50: the step takes a pending condition by its procedure; with none pending, the wait state holds. -/
theorem boundaryInterrupts : Obligations.BoundaryInterrupts := by
  intro s hm harrivals hpower hqueue b swaps taken
  have hstep : step s = b.boundary exec := step_of_running harrivals hpower
  have hpending : b.pending = s.pending := s.begun.pending_dropMasked
  have hb : b = { s.begun with parityInstr := s.psw.mmEn && s.parityInstr,
                               parityOperand := s.psw.mmEn && s.parityOperand } := s.begun_dropMasked_eq
  have hqueueB : b.psw.ctEn = true → b.queueOk := hb ▸ hqueue
  have hmB : Memory.wf b.mem = true := hb ▸ hm
  have hpsw : b.psw = s.psw := hb ▸ rfl
  have hreqs : b.requests = s.requests := hb ▸ rfl
  have hhalf : b.halfAt = s.halfAt := hb ▸ rfl
  have hhalves : b.halvesOk = s.halvesOk := hb ▸ rfl
  refine ⟨fun hsignal => ?signal, fun hquiet hwait => ?quiet⟩
  case quiet =>
    have hnone := hpending.trans (State.pending_eq_nil.2 hquiet)
    rw [hstep, State.boundary_quiet hqueueB hnone, hpsw]
    exact if_pos hwait
  case signal =>
    have hsome := fun hnone => hsignal (State.pending_eq_nil.1 (hpending.symm.trans hnone))
    obtain ⟨c, hc, u, hu, htake⟩ := State.boundary_takes (run := exec) hqueueB hsome
    have hsignals := State.mem_pending.1 (hpending ▸ hc)
    have hswap := fun old new hnew => hpsw ▸ hu.swapped hmB old new hnew
    rw [hstep, htake]
    refine ⟨c, hsignals, ?_⟩
    cases c with
    | external => exact ⟨_, rfl, hswap 0x0040 0x0044 (by decide)⟩
    | channel => exact ⟨_, rfl, hswap 0x0082 0x0086 (by decide)⟩
    | powerFailure => exact ⟨_, hswap 0x0038 0x003C (by decide), u.takeInterrupt_powerFailure⟩
    | parityInstr => exact ⟨_, hswap 0x0038 0x003C (by decide), u.takeInterrupt_parityInstr⟩
    | parityOperand => exact ⟨_, hswap 0x0038 0x003C (by decide), u.takeInterrupt_parityOperand⟩
    | immediate =>
      obtain ⟨-, -, hrequests⟩ := hsignals
      obtain ⟨q, rest, hreq⟩ := List.exists_cons_of_ne_nil hrequests
      have hentry := hu.takeImmediate hmB (hreqs.trans hreq) rfl
      rw [hpsw, hhalf, hhalves, hreqs] at hentry
      exact ⟨q, rest, hreq, hentry⟩

end Sys2Proof.Machine
end

section
/-! The power modes (60_exceptions.md R480 to R482, R485 to R487; 10_state.md R42): what the power down sequence saves
clear of the fixed locations is what the restart brings back. -/

namespace Sys2Proof.Machine

variable {s t u : State}

/-- A halfword is read from memory alone. -/
theorem State.halfAt_of_mem (h : u.mem = t.mem) : u.halfAt = t.halfAt := by
  funext b a
  rw [State.halfAt, State.halfAt, State.byteAt, State.byteAt, State.byteAt, State.byteAt, h]

/-- Which halfwords are memory the parameters say. -/
theorem State.halvesOk_of_params (h : u.params = s.params) : u.halvesOk = s.halvesOk := by
  funext b n a
  unfold State.halvesOk State.halfOk State.byteOk
  rw [h]

/-! ### Power down -/

/-- The Register Save Pointer lies clear of the fixed locations and of the end of the bank. -/
def saveArea (rsp : Word) : Prop := 0x0028 ≤ rsp.toNat ∧ rsp.toNat ≤ 0xFFE0

/-- The sixteen registers saved from the Register Save Pointer on. -/
def State.registersSaved (s : State) : State := storeMany 0 16 0 s.savePointer s

theorem State.registersSaved_keeps (s : State) : s.Keeps s.registersSaved [] (span 0 s.savePointer 32) :=
  storeMany_keeps 0 16 0 _ s _ (by decide) fun _ _ h => h

theorem State.registersSaved_psw (s : State) : s.registersSaved.psw = s.psw :=
  storeMany_psw 0 16 0 _ s

/-- The save area leaves the fixed locations below it alone. -/
theorem State.registersSaved_halfAt_low (h : saveArea s.savePointer) {a : Word} (ha : a.toNat < 0x27) :
    s.registersSaved.halfAt 0 a = s.halfAt 0 a := by
  obtain ⟨hlow, hhigh⟩ := h
  refine s.registersSaved_keeps.halfAt ?_ ?_ <;> rintro ⟨-, hin⟩ <;> bv_omega

theorem State.registersSaved_halfAt_reg (hm : Memory.wf s.mem = true) (r : Nibble) :
    s.registersSaved.halfAt 0 (s.savePointer + 2 * r.setWidth 16) = s.reg r := by
  have hstored := storeMany_halfAt 0 16 0 s.savePointer s r hm (by decide) (Nat.zero_le _) (by bv_omega)
  rwa [show r - 0 = r from BitVec.sub_zero r] at hstored

/-- The PSW saved at its fixed location, and the mode that follows. -/
def State.pswSaved (u : State) (p : Psw) : State :=
  { (u.setHalf 0 0x0024 p.status).setHalf 0 0x0026 p.lc with power := .powerDown }

theorem State.pswSaved_psw (u : State) (p : Psw) : (u.pswSaved p).psw = u.psw := rfl

theorem State.pswSaved_reg (u : State) (p : Psw) (r : Nibble) : (u.pswSaved p).reg r = u.reg r := rfl

theorem State.wf_pswSaved (h : Memory.wf u.mem = true) (p : Psw) : Memory.wf (u.pswSaved p).mem = true :=
  State.wf_setHalf (State.wf_setHalf h _ _ _) _ _ _

theorem State.pswSaved_halfAt_status (h : Memory.wf u.mem = true) (p : Psw) :
    (u.pswSaved p).halfAt 0 0x0024 = p.status :=
  (State.halfAt_setHalf_of_ne _ (by decide)).trans (State.halfAt_setHalf_self h _ _ _)

theorem State.pswSaved_halfAt_lc (h : Memory.wf u.mem = true) (p : Psw) : (u.pswSaved p).halfAt 0 0x0026 = p.lc :=
  State.halfAt_setHalf_self (State.wf_setHalf h _ _ _) _ _ _

theorem State.pswSaved_halfAt_of_far (u : State) (p : Psw) {a : Word}
    (h : a.toNat < 0x23 ∨ 0x28 ≤ a.toNat ∧ a.toNat < 0xFFFF) : (u.pswSaved p).halfAt 0 a = u.halfAt 0 a := by
  have hstatus : ¬ ((0 : Bank) = 0 ∧ (a = 0x0024 ∨ a = 0x0024 + 1 ∨ a + 1 = 0x0024)) := by bv_omega
  have hlc : ¬ ((0 : Bank) = 0 ∧ (a = 0x0026 ∨ a = 0x0026 + 1 ∨ a + 1 = 0x0026)) := by bv_omega
  exact (State.halfAt_setHalf_of_ne _ hlc).trans (State.halfAt_setHalf_of_ne _ hstatus)

/-- The state the power down sequence leaves. -/
def State.saved (s : State) : State := s.registersSaved.pswSaved s.psw

theorem State.deliver_powerDown (hp : s.power = .running) (hok : s.halvesOk 0 16 s.savePointer) :
    s.deliver .powerDown = .next s.saved :=
  (if_pos hp).trans (State.guardHalves_pos hok)

theorem State.saved_psw (s : State) : s.saved.psw = s.psw :=
  (State.pswSaved_psw _ _).trans s.registersSaved_psw

theorem State.saved_reg (s : State) (r : Nibble) : s.saved.reg r = s.reg r :=
  (State.pswSaved_reg _ _ r).trans (s.registersSaved_keeps.regs r List.not_mem_nil)

theorem State.wf_saved (hm : Memory.wf s.mem = true) : Memory.wf s.saved.mem = true :=
  State.wf_pswSaved (wf_storeMany 0 16 0 _ s hm) s.psw

theorem State.saved_halfAt_status (hm : Memory.wf s.mem = true) : s.saved.halfAt 0 0x0024 = s.psw.status :=
  State.pswSaved_halfAt_status (wf_storeMany 0 16 0 _ s hm) s.psw

theorem State.saved_halfAt_lc (hm : Memory.wf s.mem = true) : s.saved.halfAt 0 0x0026 = s.psw.lc :=
  State.pswSaved_halfAt_lc (wf_storeMany 0 16 0 _ s hm) s.psw

theorem State.saved_halfAt_reg (hm : Memory.wf s.mem = true) (h : saveArea s.savePointer) (r : Nibble) :
    s.saved.halfAt 0 (s.savePointer + 2 * r.setWidth 16) = s.reg r := by
  obtain ⟨hlow, hhigh⟩ := h
  rw [State.saved, State.pswSaved_halfAt_of_far _ _ (.inr ?_), State.registersSaved_halfAt_reg hm]
  have hr : (r.setWidth 16 : Word).toNat < 16 := by rw [BitVec.toNat_setWidth]; omega
  generalize (r.setWidth 16 : Word) = w at hr
  bv_omega

/-- The Register Save Pointer itself is still there at the restart. -/
theorem State.saved_savePointer (h : saveArea s.savePointer) : s.saved.savePointer = s.savePointer :=
  (State.pswSaved_halfAt_of_far _ _ (.inl (by decide))).trans (State.registersSaved_halfAt_low h (by decide))

/-! ### Restart -/

theorem State.restored_mem (u : State) : u.restored.mem = u.mem := by
  rw [State.restored, loadMany_same]
  rfl

theorem State.restored_reg (u : State) (r : Nibble) :
    u.restored.reg r = u.halfAt 0 (u.savePointer + 2 * r.setWidth 16) := by
  have hloaded := loadMany_reg 0 16 0 u.savePointer u r (by decide) (Nat.zero_le _) (by bv_omega)
  rw [show r - 0 = r from BitVec.sub_zero r] at hloaded
  exact hloaded

theorem State.restored_status (u : State) : u.restored.psw.status = u.halfAt 0 0x0024 :=
  Psw.status_withStatus (loadMany 0 16 0 u.savePointer u).psw _

theorem State.restored_lc (u : State) : u.restored.psw.lc = u.halfAt 0 0x0026 := rfl

/-- The step of a processor in Restart, with the Machine Malfunction exchange where bit 2 of the PSW is set. -/
theorem State.step_restart (hp : u.power = .restart) (harrivals : u.arrivals.headD [] = [])
    (hok : u.halvesOk 0 16 u.savePointer) :
    step u = .next (if u.begun.restored.psw.mmEn then u.begun.restored.raiseMalfunction else u.begun.restored) := by
  have hact : u.begun.act exec = u.begun.performRestart := by
    rw [State.act, show u.begun.power = .restart from hp]
  have hbegun : u.begun.halvesOk 0 16 u.begun.savePointer := hok
  rw [step_of_no_event harrivals, hact, State.performRestart, State.guardHalves_pos hbegun]

/-- A Machine Malfunction exchange after the restart keeps what the restart set. -/
theorem State.restart_ends (r : State) (hm : Memory.wf r.mem = true) (hpower : r.power = .running)
    (hapf : r.apfPending = false) (hcpr : legalCpr r.cpr = true) :
    let v := if r.psw.mmEn then r.raiseMalfunction else r
    v.power = .running ∧ v.apfPending = false ∧ legalCpr v.cpr = true ∧ (∀ q : Nibble, v.reg q = r.reg q) ∧
      (r.psw.mmEn = false → v.psw = r.psw) ∧
      (r.psw.mmEn = true → v.halfAt 0 0x0038 = r.psw.status ∧ v.halfAt 0 0x003A = r.psw.lc ∧
        v.psw.status = r.halfAt 0 0x003C ∧ v.psw.lc = r.halfAt 0 0x003E) := by
  cases hmm : r.psw.mmEn with
  | false => exact ⟨hpower, hapf, hcpr, fun _ => rfl, fun _ => rfl, nofun⟩
  | true =>
    obtain ⟨hold, holdLc, hnew, hnewLc, hkeeps⟩ : r.swapped r.raiseMalfunction r.psw.status r.psw.lc 0x0038 0x003C :=
      State.swapped_exchange hm _ _ _ (by decide)
    show _ ∧ _
    generalize r.raiseMalfunction = v at hold holdLc hnew hnewLc hkeeps
    exact ⟨hkeeps.power.trans hpower, hkeeps.apfPending.trans hapf, hkeeps.cpr.symm ▸ hcpr,
      fun q => hkeeps.regs q List.not_mem_nil, nofun, fun _ => ⟨hold, holdLc, hnew, hnewLc⟩⟩

/-! ### The other modes -/

theorem State.deliver_powerRestore (s : State) (valid : Bool) : s.deliver (.powerRestore valid) =
    .next (if valid = true ∧ s.power ≠ .powerOff then { s with memOperational := true, power := .restart }
      else { s with memOperational := false, power := .startUp }) := by
  refine congrArg Host.Outcome.next ?_
  have hguard : (valid && !decide (s.power = .powerOff)) = decide (valid = true ∧ s.power ≠ .powerOff) := by
    by_cases hoff : s.power = .powerOff <;> cases valid <;> simp [hoff]
  rw [State.restorePower, hguard]
  by_cases h : valid = true ∧ s.power ≠ .powerOff <;> simp [h]

/-- Program load, and Start-up without valid memory, end in the initialised state (log 36). -/
theorem step_initialises (harrivals : s.arrivals.headD [] = [])
    (hmode : s.power = .programLoad ∨ (s.power = .startUp ∧ s.memOperational = false)) :
    step s = .next s.begun.initialised := by
  rw [step_of_no_event harrivals, State.act]
  obtain hload | ⟨hstart, hlost⟩ := hmode
  · rw [show s.begun.power = .programLoad from hload]
  · rw [show s.begun.power = .startUp from hstart, show s.begun.memOperational = false from hlost]
    rfl

/-- In Power-down, Stand-By and Power-Off the processor stays. -/
theorem step_holds (harrivals : s.arrivals.headD [] = [])
    (hmode : s.power = .powerDown ∨ s.power = .standBy ∨ s.power = .powerOff) : step s = .next s.begun := by
  have hbegun : s.begun.power = .powerDown ∨ s.begun.power = .standBy ∨ s.begun.power = .powerOff := hmode
  rw [step_of_no_event harrivals, State.act]
  obtain h | h | h := hbegun <;> rw [h]

/-- What the power down sequence saved the restart brings back. -/
theorem State.restart_of_saved (hm : Memory.wf s.mem = true) (harea : saveArea s.savePointer)
    (hok : s.halvesOk 0 16 s.savePointer) (hmem : u.mem = s.saved.mem) (hparams : u.params = s.params)
    (hp : u.power = .restart) (harrivals : u.arrivals.headD [] = []) :
    ∃ v, step u = .next v ∧ v.power = .running ∧ v.apfPending = false ∧ legalCpr v.cpr = true ∧
      (∀ r : Nibble, v.reg r = s.reg r) ∧ (s.psw.mmEn = false → v.psw = s.psw) ∧
      (s.psw.mmEn = true → v.halfAt 0 0x0038 = s.psw.status ∧ v.halfAt 0 0x003A = s.psw.lc ∧
        v.psw.status = s.saved.halfAt 0 0x003C ∧ v.psw.lc = s.saved.halfAt 0 0x003E) := by
  have hhalf : u.halfAt = s.saved.halfAt := State.halfAt_of_mem hmem
  have hrsp : u.savePointer = s.savePointer := (congrFun (congrFun hhalf 0) _).trans (State.saved_savePointer harea)
  have hstep := State.step_restart hp harrivals (by rw [hrsp, State.halvesOk_of_params hparams]; exact hok)
  have hmemR : u.begun.restored.mem = s.saved.mem := u.begun.restored_mem.trans hmem
  have hregR : ∀ r, u.begun.restored.reg r = s.reg r := fun r =>
    calc u.begun.restored.reg r = u.halfAt 0 (u.savePointer + 2 * r.setWidth 16) := u.begun.restored_reg r
      _ = s.saved.halfAt 0 (s.savePointer + 2 * r.setWidth 16) := by rw [hhalf, hrsp]
      _ = s.reg r := State.saved_halfAt_reg hm harea r
  have hstatusR : u.begun.restored.psw.status = s.psw.status :=
    u.begun.restored_status.trans ((congrFun (congrFun hhalf 0) _).trans (State.saved_halfAt_status hm))
  have hlcR : u.begun.restored.psw.lc = s.psw.lc :=
    u.begun.restored_lc.trans ((congrFun (congrFun hhalf 0) _).trans (State.saved_halfAt_lc hm))
  have hwfR := (congrArg Memory.wf hmemR).trans (State.wf_saved hm)
  have hends := State.restart_ends u.begun.restored hwfR rfl rfl (legalCpr_cprValue _)
  have hpswR := Psw.eq_of_status hstatusR hlcR
  rw [hpswR, State.halfAt_of_mem hmemR] at hends
  rw [hpswR] at hstep
  obtain ⟨hpower, hapf, hcpr, hregs, hplain, hmalfunction⟩ := hends
  exact ⟨_, hstep, hpower, hapf, hcpr, fun r => (hregs r).trans (hregR r), hplain, hmalfunction⟩

/-- Settles O51: each mode's step, and the save area carried from the power down to the restart. -/
theorem powerModes : Obligations.PowerModes := by
  intro s
  refine ⟨?powerDown, s.deliver_powerRestore, ?programLoad, ?initialise, step_holds⟩
  case powerDown =>
    intro hm hp rsp hok hlow hhigh
    have harea : saveArea s.savePointer := ⟨hlow, hhigh⟩
    exact ⟨s.saved, State.deliver_powerDown hp hok, rfl, s.saved_psw,
      fun r => ⟨s.saved_reg r, State.saved_halfAt_reg hm harea r⟩,
      State.saved_halfAt_status hm, State.saved_halfAt_lc hm,
      fun u hmem hparams => State.restart_of_saved hm harea hok hmem hparams⟩
  case programLoad =>
    intro hmode
    exact congrArg Host.Outcome.next (if_pos hmode)
  case initialise =>
    intro harrivals hmode
    obtain ⟨-, hcpr⟩ := s.begun.initialised_legal
    exact ⟨_, step_initialises harrivals hmode, rfl, rfl, rfl, hcpr, s.begun.initialised_rtc, s.begun.initialised_etc,
      s.begun.initialised_requests, s.begun.initialised_params⟩

end Sys2Proof.Machine
end

section
/-! The accuracy relations of the trigonometric instructions (49_list_trig_augment.md R426): the binary search and the
roots and angles it finds, and the results picked from an interval. -/

namespace Sys2Proof.Machine

/-! ### The binary search -/

section Greatest

variable {test : Nat → Bool} {top : Nat}

theorem greatest_succ (i k : Nat) : greatest test top (i + 1) k =
    greatest test top i (if k + 2 ^ i ≤ top && test (k + 2 ^ i) then k + 2 ^ i else k) := rfl

theorem le_greatest : ∀ i k, k ≤ greatest test top i k
  | 0, _ => le_rfl
  | i + 1, k => by
    rw [greatest_succ]
    refine le_trans ?_ (le_greatest i _)
    split
    · exact Nat.le_add_right k _
    · exact le_rfl

/-- What the search starts from passes the test, and so does what it finds. -/
theorem greatest_holds : ∀ i k, test k = true → test (greatest test top i k) = true
  | 0, _, h => h
  | i + 1, k, h => by
    rw [greatest_succ]
    refine greatest_holds i _ ?_
    split
    case isTrue hbit => exact (Bool.and_eq_true_iff.1 hbit).2
    case isFalse => exact h

/-- A falling test: no number in reach that passes it is above the one found. -/
theorem le_greatest_of_test (hfalls : ∀ a b, a ≤ b → test b = true → test a = true) {m : Nat} (hm : test m = true)
    (htop : m ≤ top) : ∀ i k, m < k + 2 ^ i → m ≤ greatest test top i k
  | 0, _, h => Nat.le_of_lt_succ h
  | i + 1, k, h => by
    have hsplit : k + 2 ^ (i + 1) = k + 2 ^ i + 2 ^ i := by rw [pow_succ]; omega
    rw [greatest_succ]
    by_cases hlow : m < k + 2 ^ i
    · refine le_greatest_of_test hfalls hm htop i _ ?_
      split <;> omega
    · have hmid : k + 2 ^ i ≤ m := Nat.le_of_not_lt hlow
      have hbit : (decide (k + 2 ^ i ≤ top) && test (k + 2 ^ i)) = true :=
        Bool.and_eq_true_iff.2 ⟨decide_eq_true (hmid.trans htop), hfalls _ _ hmid hm⟩
      rw [if_pos hbit]
      exact le_greatest_of_test hfalls hm htop i _ (hsplit ▸ h)

/-- Where no bit passes the search stays. -/
theorem greatest_of_none (k : Nat) : ∀ i, (∀ j < i, test (k + 2 ^ j) = false) → greatest test top i k = k
  | 0, _ => rfl
  | i + 1, h => by
    rw [greatest_succ, h i (Nat.lt_succ_self i), Bool.and_false]
    exact greatest_of_none k i fun j hj => h j (Nat.lt_succ_of_lt hj)

/-- At the top the search stays. -/
theorem greatest_at_top : ∀ i, greatest test top i top = top
  | 0 => rfl
  | i + 1 => by
    have habove : ¬ top + 2 ^ i ≤ top := Nat.not_le.2 (Nat.lt_add_of_pos_right (Nat.two_pow_pos i))
    rw [greatest_succ, decide_eq_false habove]
    exact greatest_at_top i

end Greatest

/-! ### Square roots -/

theorem rootFloor_eq_sqrt {n : Nat} (hn : n < 2 ^ 64) : rootFloor n = Nat.sqrt n := by
  have hfalls : ∀ a b : Nat, a ≤ b → decide (b * b ≤ n) = true → decide (a * a ≤ n) = true :=
    fun a b hab hb => decide_eq_true ((Nat.mul_self_le_mul_self hab).trans (of_decide_eq_true hb))
  refine Nat.eq_sqrt.2 ⟨of_decide_eq_true (greatest_holds (test := fun k => decide (k * k ≤ n)) 33 0 ?_), ?_⟩
  · exact decide_eq_true (Nat.zero_le n)
  · by_contra hlt
    have hpass : (rootFloor n + 1) * (rootFloor n + 1) ≤ n := Nat.le_of_not_lt hlt
    have hsmall : rootFloor n + 1 < 2 ^ 32 := Nat.mul_self_lt_mul_self_iff.1 (by omega)
    have habove := le_greatest_of_test hfalls (decide_eq_true hpass) hsmall.le 33 0 (by omega)
    exact Nat.not_succ_le_self _ habove

theorem le_rootFloor {n : Nat} (hn : n < 2 ^ 64) {m : Nat} : m ≤ rootFloor n ↔ m * m ≤ n := by
  rw [rootFloor_eq_sqrt hn, Nat.le_sqrt]

theorem rootCeil_le {n : Nat} (hn : n < 2 ^ 64) {m : Nat} : rootCeil n ≤ m ↔ n ≤ m * m := by
  have hfloor := Nat.sqrt_le n
  rw [rootCeil, rootFloor_eq_sqrt hn]
  split
  case isTrue hsquare =>
    rw [← hsquare, Nat.mul_self_le_mul_self_iff, hsquare]
  case isFalse hsquare =>
    rw [Nat.succ_le_iff, Nat.sqrt_lt]
    refine ⟨fun h => h.le, fun h => lt_of_le_of_ne h fun heq => hsquare ?_⟩
    rw [heq, Nat.sqrt_eq]

theorem rootCeil_le_succ {n : Nat} : rootCeil n ≤ rootFloor n + 1 := by
  unfold rootCeil
  split <;> omega

/-- An integer from the error below the root rounded up to the error above the root rounded down is near the root. -/
theorem nearRootOf_of_bounds {n e : Nat} (hn : n < 2 ^ 64) {v : Int} (hlo : (rootCeil n : Int) - e ≤ v)
    (hhi : v ≤ (rootFloor n : Int) + e) : nearRootOf e n v := by
  have hfloor : (rootFloor n : Int) ^ 2 ≤ n := by
    rw [pow_two]; exact_mod_cast (le_rootFloor hn).1 le_rfl
  have hceil : (n : Int) ≤ (rootCeil n : Int) ^ 2 := by
    rw [pow_two]; exact_mod_cast (rootCeil_le hn).1 le_rfl
  refine ⟨?below, hceil.trans (pow_le_pow_left₀ (by omega) (by omega) 2), by omega⟩
  case below =>
    obtain hneg | hpos := le_or_gt (v - e) 0
    · exact .inl hneg
    · exact .inr ((pow_le_pow_left₀ hpos.le (by omega) 2).trans hfloor)

/-! ### Results picked from an interval -/

theorem Interval.pick_mem {i : Interval} (h : i.lo ≤ i.hi) (free : Full) : i.lo ≤ i.pick free ∧ i.pick free ≤ i.hi := by
  have hpos : 0 < i.hi - i.lo + 1 := by omega
  have hnonneg := Int.emod_nonneg (free.toNat : Int) hpos.ne'
  have hlt := Int.emod_lt_of_pos (free.toNat : Int) hpos
  unfold Interval.pick
  constructor <;> omega

/-- A result picked from an interval of scalars lies in it. -/
theorem State.pickFull_mem (s : State) (lane : Nat) {i : Interval} (h : i.lo ≤ i.hi) (hlo : -2 ^ 31 ≤ i.lo)
    (hhi : i.hi < 2 ^ 31) : i.lo ≤ (s.pickFull lane i).toInt ∧ (s.pickFull lane i).toInt ≤ i.hi := by
  have hpick := Interval.pick_mem h (s.freeFull lane)
  rw [State.pickFull, BitVec.toInt_ofInt_eq_self (by decide) (hlo.trans hpick.1) (hpick.2.trans_lt hhi)]
  exact hpick

/-- The integers within `e` of another. -/
def around (x : Int) (e : Nat) : Interval := { lo := x - e, hi := x + e }

/-- A result picked around a scalar is within the error of it. -/
theorem State.pickFull_within (s : State) (lane : Nat) {x : Int} {e : Nat} (hlo : -2 ^ 31 ≤ x - e)
    (hhi : x + e < 2 ^ 31) : within e (s.pickFull lane (around x e)).toInt x := by
  have hmem := s.pickFull_mem lane (i := around x e) (by show x - (e : Int) ≤ x + e; omega) hlo hhi
  have hlow : x - (e : Int) ≤ _ := hmem.1
  have hhigh : _ ≤ x + (e : Int) := hmem.2
  unfold within
  omega

/-- An angle picked around another is within the error of it, modulo the full turn. -/
theorem State.pickFull_sub_within (s : State) (lane : Nat) (x : Int) {e : Nat} (he : e < 2 ^ 31) :
    within e (s.pickFull lane (around x e) - BitVec.ofInt 32 x).toInt 0 := by
  have hmem := Interval.pick_mem (i := around x e) (by show x - (e : Int) ≤ x + e; omega) (s.freeFull lane)
  have hlow : x - (e : Int) ≤ _ := hmem.1
  have hhigh : _ ≤ x + (e : Int) := hmem.2
  rw [State.pickFull, BitVec.sub_eq_add_neg, ← BitVec.ofInt_neg, ← BitVec.ofInt_add,
    BitVec.toInt_ofInt_eq_self (by decide) (by omega) (by omega)]
  unfold within
  omega

/-! ### The errors of Table VI-3 -/

theorem errorCos_bounds (cpr : Word) : errorCos cpr ≤ 0x8000 := by
  unfold errorCos errorAt; split_ifs <;> decide

theorem errorAtn_bounds (cpr : Word) : errorAtn cpr ≤ 0x5000 := by
  unfold errorAtn errorAt; split_ifs <;> decide

theorem errorAsn_bounds (cpr : Word) : errorAsn cpr ≤ 0xD000 := by
  unfold errorAsn errorAt; split_ifs <;> decide

theorem errorHyp_bounds (cpr : Word) : 1 ≤ errorHyp cpr ∧ errorHyp cpr ≤ 0x8000 := by
  unfold errorHyp errorAt; split_ifs <;> decide

theorem errorSqd_bounds (cpr : Word) : 1 ≤ errorSqd cpr ∧ errorSqd cpr ≤ 0x8000 := by
  unfold errorSqd errorAt; split_ifs <;> decide

/-! ### Cosine and sine at the quadrant angles -/

theorem fixedCosSin_0 : fixedCosSin 0 = (2 ^ 30 * 2 ^ 98, 0 * 2 ^ 98) := by decide +kernel

theorem fixedCosSin_90 : fixedCosSin (2 ^ 30) = (0 * 2 ^ 98, 2 ^ 30 * 2 ^ 98) := by decide +kernel

theorem fixedCosSin_180 : fixedCosSin (2 ^ 31) = (-2 ^ 30 * 2 ^ 98, 0 * 2 ^ 98) := by decide +kernel

theorem fixedCosSin_270 : fixedCosSin (3 * 2 ^ 30) = (0 * 2 ^ 98, -2 ^ 30 * 2 ^ 98) := by decide +kernel

/-- The sine of an angle of one bit is above the bound of its error. -/
theorem slop_lt_sine_bit : ∀ j < 31, slop < (fixedCosSin (2 ^ j)).2 := by decide +kernel

/-- Near a number that has no binary places are the integers around it. -/
theorem nearFixed_mul (x : Int) (e : Nat) : nearFixed (x * 2 ^ 98) e = around x e := by
  have hlow : (1024 - x * 2 ^ 98) / 2 ^ 98 = -x := by omega
  have hhigh : (x * 2 ^ 98 + 1024) / 2 ^ 98 = x := by omega
  rw [nearFixed, slop, hlow, hhigh, neg_neg, around]

/-! ### The angles on the axes -/

/-- A function that is below its error at every bit, and within it at 0, crosses zero at 0. -/
theorem crossing_eq_zero {f : Nat → Int} {err : Int} (hbits : ∀ j < 31, f (2 ^ j) < -err) (hzero : f 0 ≤ err) :
    crossing f err = ⟨0, 0⟩ := by
  have hgreatest : greatest (fun k => decide (-err ≤ f k)) (2 ^ 30) 31 0 = 0 := by
    refine greatest_of_none 0 31 fun j hj => decide_eq_false ?_
    rw [Nat.zero_add]
    exact not_le.2 (hbits j hj)
  rw [crossing, hgreatest, if_pos hzero]

/-- A function that is within its error at the right angle crosses zero there. -/
theorem crossing_eq_right {f : Nat → Int} {err : Int} (hlow : -err ≤ f (2 ^ 30)) (hhigh : f (2 ^ 30) ≤ err) :
    crossing f err = ⟨2 ^ 30, 2 ^ 30⟩ := by
  have hgreatest : greatest (fun k => decide (-err ≤ f k)) (2 ^ 30) 31 0 = 2 ^ 30 := by
    rw [greatest_succ, Nat.zero_add, decide_eq_true hlow]
    exact greatest_at_top 30
  rw [crossing, hgreatest, if_pos hhigh]

theorem arcSine_zero {z : Nat} (hz : 0 < z) : arcSine z 0 = ⟨0, 0⟩ := by
  have hz' : (0 : Int) < z := by exact_mod_cast hz
  refine crossing_eq_zero (fun j hj => ?_) ?_
  · have hsine := mul_lt_mul_of_pos_left (slop_lt_sine_bit j hj) hz'
    simp only [Nat.cast_zero, zero_mul]
    omega
  · have herr : (0 : Int) ≤ z * slop := mul_nonneg hz'.le (by decide)
    simpa [fixedCosSin_0] using herr

theorem arcSine_self (z : Nat) : arcSine z z = ⟨2 ^ 30, 2 ^ 30⟩ := by
  have herr : (0 : Int) ≤ z * slop := mul_nonneg (Int.natCast_nonneg z) (by decide)
  have hright : (z : Int) * fixedOne - z * (fixedCosSin (2 ^ 30)).2 = 0 := by
    rw [fixedCosSin_90, fixedOne]; norm_num
  refine crossing_eq_right ?_ ?_ <;> rw [hright] <;> omega

theorem arcTangent_zero {x : Nat} (hx : 0 < x) : arcTangent x 0 = ⟨0, 0⟩ := by
  have hx' : (0 : Int) < x := by exact_mod_cast hx
  refine crossing_eq_zero (fun j hj => ?_) ?_
  · have hsine := mul_lt_mul_of_pos_right (slop_lt_sine_bit j hj) hx'
    rw [mul_comm slop] at hsine
    simp only [Nat.cast_zero, mul_zero, add_zero]
    omega
  · have herr : (0 : Int) ≤ x * slop := mul_nonneg hx'.le (by decide)
    simpa [fixedCosSin_0] using herr

theorem arcTangent_right (y : Nat) : arcTangent 0 y = ⟨2 ^ 30, 2 ^ 30⟩ := by
  have herr : (0 : Int) ≤ ((0 : Nat) + y) * slop := mul_nonneg (by omega) (by decide)
  have hright : (fixedCosSin (2 ^ 30)).1 * (y : Int) - (fixedCosSin (2 ^ 30)).2 * (0 : Nat) = 0 := by
    rw [fixedCosSin_90]; norm_num
  refine crossing_eq_right ?_ ?_ <;> rw [hright] <;> omega

/-! An exact angle and the turns it is measured from. -/

theorem Angle.after_exact (k : Nat) (turn : Int) (e : Nat) : Angle.after ⟨k, k⟩ turn e = around (turn + k) e := rfl

theorem Angle.before_exact (k : Nat) (turn : Int) (e : Nat) : Angle.before ⟨k, k⟩ turn e = around (turn - k) e := rfl

end Sys2Proof.Machine
end

section
/-! The trigonometric instructions (49_list_trig_augment.md R417 to R425): the root of a difference of squares, the arc
functions, cosine and sine. -/

namespace Sys2Proof.Machine

variable {s : State} {len : Word} {r1 r2 x2 : Nibble} {a2 : Word}

/-! ### Operands and results -/

theorem State.operandTwo_pos {k : Full → Full → Out} (h : s.fullOk s.psw.obank (s.ea x2 a2))
    (h4 : s.fullOk s.psw.obank (s.ea x2 a2 + 4)) :
    s.operandTwo x2 a2 k = k (s.fullAt s.psw.obank (s.ea x2 a2)) (s.fullAt s.psw.obank (s.ea x2 a2 + 4)) :=
  (State.guardFull_pos h).trans (State.guardFull_pos h4)

/-- The two fullwords of an instruction whose R1 names a pair. -/
theorem requireEven_operandTwo_pos {k : Full → Full → Out} (h1 : isEven r1) (h : s.fullOk s.psw.obank (s.ea x2 a2))
    (h4 : s.fullOk s.psw.obank (s.ea x2 a2 + 4)) : require (evenReg r1) .registerField (s.operandTwo x2 a2 k) =
      k (s.fullAt s.psw.obank (s.ea x2 a2)) (s.fullAt s.psw.obank (s.ea x2 a2 + 4)) :=
  (require_pos (evenReg_of_isEven h1)).trans (State.operandTwo_pos h h4)

/-- The two fullwords of an instruction whose R1 names a quad. -/
theorem requireQuad_operandTwo_pos {k : Full → Full → Out} (h1 : isEven r1) (h12 : r1.toNat ≤ 12)
    (h : s.fullOk s.psw.obank (s.ea x2 a2)) (h4 : s.fullOk s.psw.obank (s.ea x2 a2 + 4)) :
    require (quadReg r1) .registerField (s.operandTwo x2 a2 k) =
      k (s.fullAt s.psw.obank (s.ea x2 a2)) (s.fullAt s.psw.obank (s.ea x2 a2 + 4)) :=
  (require_pos (quadReg_of_isEven h1 h12)).trans (State.operandTwo_pos h h4)

theorem evenReg_and_quadReg (h1 : isEven r1) (h2 : isEven r2) (h12 : r2.toNat ≤ 12) :
    (evenReg r1 && quadReg r2) = true :=
  Bool.and_eq_true_iff.2 ⟨evenReg_of_isEven h1, quadReg_of_isEven h2 h12⟩

theorem quadReg_and_quadReg (h1 : isEven r1) (h12 : r1.toNat ≤ 12) (h2 : isEven r2) (h22 : r2.toNat ≤ 12) :
    (quadReg r1 && quadReg r2) = true :=
  Bool.and_eq_true_iff.2 ⟨quadReg_of_isEven h1 h12, quadReg_of_isEven h2 h22⟩

/-- A quad that holds two fullwords holds each in its pair. -/
theorem State.pairs_of_quad {t : State} {r : Nibble} {p q : Full} (h : t.quad r = p ++ q) :
    t.pair r = p ∧ t.pair (r + 2) = q := by
  have hhigh := congrArg (BitVec.extractLsb' 32 32) h
  have hlow := congrArg (BitVec.extractLsb' 0 32) h
  rw [State.quad, BitVec.extractLsb'_append_eq_left, BitVec.extractLsb'_append_eq_left] at hhigh
  rw [State.quad, BitVec.extractLsb'_append_eq_right, BitVec.extractLsb'_append_eq_right] at hlow
  exact ⟨hhigh, hlow⟩

theorem finishTrig_setsCc (v : Bool) : s.setsCc (finishTrig len v s s) len (overflowFlag v) :=
  State.setsCc_drawn rfl

theorem finishTrig_putsPair (v : Bool) (w : Full) :
    s.putsPair (finishTrig len v (s.setPair r1 w) s) len r1 w (overflowFlag v) :=
  State.putsPair_drawn rfl

theorem finishTrig_putsQuad (v : Bool) (w : Quad) :
    s.putsQuad (finishTrig len v (s.setQuad r1 w) s) len r1 w (overflowFlag v) :=
  State.putsQuad_drawn rfl

/-- The magnitude of a fullword. -/
theorem natAbs_toInt_le (x : Full) : x.toInt.natAbs ≤ 2 ^ 31 := by
  have hlow := x.le_two_mul_toInt
  have hhigh := x.two_mul_toInt_lt
  omega

/-! ### SQDR and SQD -/

theorem rootDifferenceInto_fails {x y : Full} (h : x.toInt.natAbs < y.toInt.natAbs) :
    s.setsCc (rootDifferenceInto len r1 x y s) len (overflowFlag true) := by
  rw [rootDifferenceInto, if_pos h]
  exact finishTrig_setsCc true

theorem rootDifferenceInto_equal {x y : Full} (h : x.toInt.natAbs = y.toInt.natAbs) :
    s.putsPair (rootDifferenceInto len r1 x y s) len r1 0 (overflowFlag false) := by
  rw [rootDifferenceInto, if_neg h.not_lt, if_pos h]
  exact finishTrig_putsPair false 0

/-- The scalars near the root of the difference of the squares of two scalars. -/
theorem pickFull_sqdInterval {n : Nat} (hn : n ≤ 2 ^ 31 * 2 ^ 31) (lane : Nat) :
    nearRootOf (errorSqd s.cpr) n (s.pickFull lane (sqdInterval s.cpr n)).toInt := by
  obtain ⟨he, he'⟩ := errorSqd_bounds s.cpr
  have hn' : n < 2 ^ 64 := by omega
  have hceil := (rootCeil_le hn').2 hn
  have hnear := rootCeil_le_succ (n := n)
  have hlo : (sqdInterval s.cpr n).lo = (rootCeil n : Int) - errorSqd s.cpr := rfl
  have hhi : (sqdInterval s.cpr n).hi = min (2 ^ 31 - 1) ((rootFloor n : Int) + errorSqd s.cpr) := rfl
  have hmem := s.pickFull_mem lane (i := sqdInterval s.cpr n) (by omega) (by omega) (by omega)
  exact nearRootOf_of_bounds hn' (by omega) (by omega)

theorem rootDifferenceInto_root {x y : Full} (h : y.toInt.natAbs < x.toInt.natAbs) :
    let t := rootDifferenceInto len r1 x y s
    nearRootOf (errorSqd s.cpr) (x.toInt.natAbs * x.toInt.natAbs - y.toInt.natAbs * y.toInt.natAbs)
      (t.pair r1).toInt ∧ s.putsPair t len r1 (t.pair r1) (overflowFlag false) := by
  intro t
  have ht : t = finishTrig len false (s.setPair r1 (s.pickFull 1 (sqdInterval s.cpr
      (x.toInt.natAbs * x.toInt.natAbs - y.toInt.natAbs * y.toInt.natAbs)))) s :=
    (if_neg h.not_gt).trans (if_neg h.ne')
  have hputs := finishTrig_putsPair (s := s) (len := len) (r1 := r1) false (s.pickFull 1 (sqdInterval s.cpr
      (x.toInt.natAbs * x.toInt.natAbs - y.toInt.natAbs * y.toInt.natAbs)))
  rw [← ht] at hputs
  have hvalue := hputs.1
  rw [hvalue]
  refine ⟨pickFull_sqdInterval ((Nat.sub_le _ _).trans ?_) 1, hputs⟩
  exact Nat.mul_self_le_mul_self (natAbs_toInt_le x)

/-- Settles O41: the three cases of R424, the root within its error by the search for it. -/
theorem rootDifference : Obligations.RootDifference := by
  intro s r1 h1 root
  have hroot : ∀ i len x y, exec i s = .next (rootDifferenceInto len r1 x y s) → root i len x y :=
    fun i len x y hexec => ⟨fun h => ⟨_, hexec, rootDifferenceInto_fails h⟩,
      fun h => ⟨_, hexec, rootDifferenceInto_equal h⟩, fun h => ⟨_, hexec, rootDifferenceInto_root h⟩⟩
  exact ⟨fun r2 h2 h12 => hroot _ _ _ _ (require_pos (evenReg_and_quadReg h1 h2 h12)),
    fun x2 a2 h h4 => hroot _ _ _ _ (requireEven_operandTwo_pos h1 h h4)⟩

/-! ### ASNR and ASN -/

theorem arcSineInto_fails {z y : Full} (h : z.toInt.natAbs < y.toInt.natAbs ∨ (z = 0 ∧ y = 0)) :
    s.setsCc (arcSineInto len r1 z y s) len (overflowFlag true) := by
  rw [arcSineInto, if_pos h]
  exact finishTrig_setsCc true

theorem asnInterval_zero (cpr : Word) {z : Int} (hz : z ≠ 0) : asnInterval cpr z 0 = around 0 (errorAsn cpr) := by
  rw [asnInterval, if_neg (lt_irrefl 0), Int.natAbs_zero, arcSine_zero (Int.natAbs_pos.2 hz)]
  rfl

theorem asnInterval_right (cpr : Word) {z y : Int} (h : y.natAbs = z.natAbs) (hy : 0 < y) :
    asnInterval cpr z y = around (2 ^ 30) (errorAsn cpr) := by
  rw [asnInterval, if_neg hy.not_gt, h, arcSine_self]
  rfl

theorem asnInterval_left (cpr : Word) {z y : Int} (h : y.natAbs = z.natAbs) (hy : y < 0) :
    asnInterval cpr z y = around (-2 ^ 30) (errorAsn cpr) := by
  rw [asnInterval, if_pos hy, h, arcSine_self]
  rfl

theorem arcSineInto_angle {z y : Full} (h : y.toInt.natAbs ≤ z.toInt.natAbs) (hz : z ≠ 0) :
    let t := arcSineInto len r1 z y s
    s.putsPair t len r1 (t.pair r1) (overflowFlag false) ∧
      (y.toInt.natAbs = 0 → within (errorAsn s.cpr) (t.pair r1).toInt 0) ∧
      (y.toInt.natAbs = z.toInt.natAbs → 0 < y.toInt → within (errorAsn s.cpr) (t.pair r1).toInt (2 ^ 30)) ∧
      (y.toInt.natAbs = z.toInt.natAbs → y.toInt < 0 → within (errorAsn s.cpr) (t.pair r1).toInt (-2 ^ 30)) := by
  intro t
  have ht : t = finishTrig len false (s.setPair r1 (s.pickFull 1 (asnInterval s.cpr z.toInt y.toInt))) s :=
    if_neg (not_or.2 ⟨h.not_gt, fun hzero => hz hzero.1⟩)
  have hputs := finishTrig_putsPair (s := s) (len := len) (r1 := r1) false
    (s.pickFull 1 (asnInterval s.cpr z.toInt y.toInt))
  rw [← ht] at hputs
  have hvalue := hputs.1
  have he := errorAsn_bounds s.cpr
  have hzInt : z.toInt ≠ 0 := fun hzero => hz (BitVec.toInt_inj.1 hzero)
  rw [hvalue]
  refine ⟨hputs, fun hy => ?_, fun hyz hy => ?_, fun hyz hy => ?_⟩
  · rw [Int.natAbs_eq_zero.1 hy, asnInterval_zero _ hzInt]
    exact s.pickFull_within 1 (by omega) (by omega)
  · rw [asnInterval_right _ hyz hy]
    exact s.pickFull_within 1 (by omega) (by omega)
  · rw [asnInterval_left _ hyz hy]
    exact s.pickFull_within 1 (by omega) (by omega)

/-! ### ATNR and ATN: the angle -/

theorem atnInterval_of_nonneg (cpr : Word) {x : Int} (y : Int) (free : Bool) (hx : 0 ≤ x) :
    atnInterval cpr x y free = quadrantInterval cpr x y := by
  rw [atnInterval, decide_eq_false hx.not_gt, Bool.false_and, Bool.false_and, if_neg Bool.false_ne_true]

theorem atnInterval_east (cpr : Word) {x : Int} (free : Bool) (hx : 0 < x) :
    atnInterval cpr x 0 free = around 0 (errorAtn cpr) := by
  rw [atnInterval_of_nonneg _ _ _ hx.le, quadrantInterval, if_pos hx.le, if_pos le_rfl, Int.natAbs_zero,
    arcTangent_zero (Int.natAbs_pos.2 hx.ne')]
  rfl

theorem atnInterval_north (cpr : Word) {y : Int} (free : Bool) (hy : 0 < y) :
    atnInterval cpr 0 y free = around (2 ^ 30) (errorAtn cpr) := by
  rw [atnInterval_of_nonneg _ _ _ le_rfl, quadrantInterval, if_pos le_rfl, if_pos hy.le, Int.natAbs_zero,
    arcTangent_right]
  rfl

theorem atnInterval_south (cpr : Word) {y : Int} (free : Bool) (hy : y < 0) :
    atnInterval cpr 0 y free = around (-2 ^ 30) (errorAtn cpr) := by
  rw [atnInterval_of_nonneg _ _ _ le_rfl, quadrantInterval, if_pos le_rfl, if_neg hy.not_ge, Int.natAbs_zero,
    arcTangent_right]
  rfl

/-- On the negative x axis the angle is the half turn, or 0 where the principal value is admitted (log 25). -/
theorem atnInterval_west (cpr : Word) {x : Int} (free : Bool) (hx : x < 0) :
    atnInterval cpr x 0 free = around (2 ^ 31) (errorAtn cpr) ∨
      (Config.atnFourQuadrant = false ∧ atnInterval cpr x 0 free = around 0 (errorAtn cpr)) := by
  have hangle : arcTangent x.natAbs (0 : Int).natAbs = ⟨0, 0⟩ := arcTangent_zero (Int.natAbs_pos.2 hx.ne)
  rw [atnInterval]
  split
  case isTrue hprincipal =>
    obtain ⟨hconfig, -⟩ := Bool.and_eq_true_iff.1 hprincipal
    refine .inr ⟨(Bool.not_eq_true' _).mp (Bool.and_eq_true_iff.1 hconfig).2, ?_⟩
    rw [principalInterval, hangle]
    rfl
  case isFalse =>
    refine .inl ?_
    rw [quadrantInterval, hangle, if_neg hx.not_ge, if_pos le_rfl]
    rfl

/-! ### ATNR and ATN: the root -/

/-- The sum of the squares of two scalars is in reach of the search for its root. -/
theorem sumSquares_lt (x y : Full) : sumSquares x y < 2 ^ 64 := by
  have hx := Nat.mul_self_le_mul_self (natAbs_toInt_le x)
  have hy := Nat.mul_self_le_mul_self (natAbs_toInt_le y)
  unfold sumSquares
  omega

theorem sumSquares_eq (x y : Full) : sumSquares x y = x.toInt.natAbs ^ 2 + y.toInt.natAbs ^ 2 := by
  rw [sumSquares, pow_two, pow_two]

theorem hypOverflows_eq (cpr : Word) (n : Nat) (free : Bool) : hypOverflows cpr n free =
    if (maxScalar + errorHyp cpr) * (maxScalar + errorHyp cpr) < n then true
    else if (n : Int) ≤ (maxScalar - errorHyp cpr) * (maxScalar - errorHyp cpr) then false else free := rfl

/-- The bounds of the greatest scalar and the error, as natural numbers. -/
theorem maxScalar_add_error (cpr : Word) : maxScalar + errorHyp cpr = ((2 ^ 31 - 1 + errorHyp cpr : Nat) : Int) := by
  unfold maxScalar; omega

theorem maxScalar_sub_error (cpr : Word) : maxScalar - errorHyp cpr = ((2 ^ 31 - 1 - errorHyp cpr : Nat) : Int) := by
  obtain ⟨-, he⟩ := errorHyp_bounds cpr
  unfold maxScalar; omega

theorem hypOverflows_of_gt {cpr : Word} {n : Nat} {free : Bool} (h : (2 ^ 31 - 1 + errorHyp cpr) ^ 2 < n) :
    hypOverflows cpr n free = true := by
  rw [hypOverflows_eq, maxScalar_add_error]
  generalize 2 ^ 31 - 1 + errorHyp cpr = m at h ⊢
  rw [pow_two] at h
  rw [if_pos (by exact_mod_cast h)]

theorem hypOverflows_of_le {cpr : Word} {n : Nat} {free : Bool} (h : n ≤ (2 ^ 31 - 1 - errorHyp cpr) ^ 2) :
    hypOverflows cpr n free = false := by
  have hle : 2 ^ 31 - 1 - errorHyp cpr ≤ 2 ^ 31 - 1 + errorHyp cpr := by omega
  rw [hypOverflows_eq, maxScalar_add_error, maxScalar_sub_error]
  generalize 2 ^ 31 - 1 + errorHyp cpr = m at hle ⊢
  generalize 2 ^ 31 - 1 - errorHyp cpr = k at h hle ⊢
  rw [pow_two] at h
  have hsmall : ¬ (m : Int) * m < n := by exact_mod_cast (h.trans (Nat.mul_self_le_mul_self hle)).not_gt
  have hsure : (n : Int) ≤ k * k := by exact_mod_cast h
  rw [if_neg hsmall, if_pos hsure]

/-- Without overflow the root less its error is a scalar. -/
theorem le_of_hypOverflows {cpr : Word} {n : Nat} {free : Bool} (h : hypOverflows cpr n free = false) :
    n ≤ (2 ^ 31 - 1 + errorHyp cpr) * (2 ^ 31 - 1 + errorHyp cpr) := by
  by_contra hgt
  rw [hypOverflows_of_gt (by rw [pow_two]; exact Nat.lt_of_not_le hgt)] at h
  cases h

theorem pickFull_hypInterval {n : Nat} (hn : n < 2 ^ 64)
    (hmax : n ≤ (2 ^ 31 - 1 + errorHyp s.cpr) * (2 ^ 31 - 1 + errorHyp s.cpr)) (lane : Nat) :
    nearRootOf (errorHyp s.cpr) n (s.pickFull lane (hypInterval s.cpr n)).toInt := by
  obtain ⟨he, he'⟩ := errorHyp_bounds s.cpr
  have hceil := (rootCeil_le hn).2 hmax
  have hnear := rootCeil_le_succ (n := n)
  have hlo : (hypInterval s.cpr n).lo = max 0 ((rootCeil n : Int) - errorHyp s.cpr) := rfl
  have hhi : (hypInterval s.cpr n).hi = min (2 ^ 31 - 1) ((rootFloor n : Int) + errorHyp s.cpr) := rfl
  have hmem := s.pickFull_mem lane (i := hypInterval s.cpr n) (by omega) (by omega) (by omega)
  exact nearRootOf_of_bounds hn (by omega) (by omega)

/-! ### ATNR and ATN -/

theorem arcTangentInto_zero : s.putsQuad (arcTangentInto len r1 0 0 s) len r1 0 (overflowFlag false) := by
  rw [arcTangentInto, if_pos ⟨rfl, rfl⟩]
  exact finishTrig_putsQuad false 0

section NotZero

/-! Of a vector that is not zero `n` is the sum of the squares. -/

variable {x y : Full} {n : Nat}

theorem not_both_zero (hsum : sumSquares x y = n) (hn : n ≠ 0) : ¬ (x = 0 ∧ y = 0) := by
  rintro ⟨rfl, rfl⟩
  exact hn (hsum.symm.trans (by decide))

theorem arcTangentInto_fails (hsum : sumSquares x y = n) (hn : n ≠ 0)
    (h : hypOverflows s.cpr n (s.freeBit 4) = true) :
    s.setsCc (arcTangentInto len r1 x y s) len (overflowFlag true) := by
  rw [arcTangentInto, hsum, if_neg (not_both_zero hsum hn), if_pos h]
  exact finishTrig_setsCc true

theorem arcTangentInto_puts (hsum : sumSquares x y = n) (hn : n ≠ 0)
    (h : hypOverflows s.cpr n (s.freeBit 4) = false) :
    let t := arcTangentInto len r1 x y s
    s.putsQuad t len r1 (t.quad r1) (overflowFlag false) ∧
      t.pair r1 = s.pickFull 1 (atnInterval s.cpr x.toInt y.toInt (s.freeBit 5)) ∧
      t.pair (r1 + 2) = s.pickFull 2 (hypInterval s.cpr n) := by
  intro t
  have ht : t = finishTrig len false (s.setQuad r1 (s.pickFull 1 (atnInterval s.cpr x.toInt y.toInt (s.freeBit 5)) ++
      s.pickFull 2 (hypInterval s.cpr n))) s := by
    subst hsum
    exact (if_neg (not_both_zero rfl hn)).trans (if_neg (Bool.eq_false_iff.1 h))
  have hputs := finishTrig_putsQuad (s := s) (len := len) (r1 := r1) false
    (s.pickFull 1 (atnInterval s.cpr x.toInt y.toInt (s.freeBit 5)) ++ s.pickFull 2 (hypInterval s.cpr n))
  rw [← ht] at hputs
  have hvalue := hputs.1
  exact ⟨hvalue ▸ hputs, State.pairs_of_quad hvalue⟩

/-- The root and the angles on the axes. -/
theorem arcTangentInto_ends (hsum : sumSquares x y = n) (hn : n ≠ 0)
    (h : hypOverflows s.cpr n (s.freeBit 4) = false) :
    let t := arcTangentInto len r1 x y s
    let angle (a : Full) : Prop := within (errorAtn s.cpr) (t.pair r1 - a).toInt 0
    s.putsQuad t len r1 (t.quad r1) (overflowFlag false) ∧
      nearRootOf (errorHyp s.cpr) n (t.pair (r1 + 2)).toInt ∧
      (y = 0 → 0 < x.toInt → angle 0) ∧
      (x = 0 → 0 < y.toInt → angle 0x40000000) ∧ (x = 0 → y.toInt < 0 → angle 0xC0000000) ∧
      (y = 0 → x.toInt < 0 → angle 0x80000000 ∨ (Config.atnFourQuadrant = false ∧ angle 0)) := by
  obtain ⟨hputs, hangle, hroot⟩ := arcTangentInto_puts (len := len) (r1 := r1) hsum hn h
  generalize arcTangentInto len r1 x y s = t at hputs hangle hroot
  intro t' angle
  have he : errorAtn s.cpr < 2 ^ 31 := (errorAtn_bounds s.cpr).trans_lt (by decide)
  have hpick : ∀ (a : Int) (w : Full), BitVec.ofInt 32 a = w →
      atnInterval s.cpr x.toInt y.toInt (s.freeBit 5) = around a (errorAtn s.cpr) → angle w := by
    rintro a _ rfl ha
    show within _ (t.pair r1 - _).toInt 0
    rw [hangle, ha]
    exact s.pickFull_sub_within 1 a he
  have hzero : ∀ v : Full, v = 0 → v.toInt = 0 := by
    rintro _ rfl
    decide
  refine ⟨hputs, ?root, fun hy hx => ?east, fun hx hy => ?north, fun hx hy => ?south, fun hy hx => ?west⟩
  case root =>
    show nearRootOf _ n (t.pair (r1 + 2)).toInt
    rw [hroot]
    exact pickFull_hypInterval (hsum ▸ sumSquares_lt x y) (le_of_hypOverflows h) 2
  case east => exact hpick 0 _ (by decide) (by rw [hzero y hy, atnInterval_east s.cpr _ hx])
  case north => exact hpick (2 ^ 30) _ (by decide) (by rw [hzero x hx, atnInterval_north s.cpr _ hy])
  case south => exact hpick (-2 ^ 30) _ (by decide) (by rw [hzero x hx, atnInterval_south s.cpr _ hy])
  case west =>
    rw [hzero y hy] at hpick
    exact (atnInterval_west s.cpr (s.freeBit 5) hx).imp (hpick (2 ^ 31) _ (by decide))
      (And.imp_right (hpick 0 _ (by decide)))

end NotZero

/-- Settles O40: the cases of R420 and R422, the angles on the axes and the root by the searches for them. -/
theorem arcFunctions : Obligations.ArcFunctions := by
  intro s r1 h1 fails arcSine arcTangent
  have hsine : ∀ i len z y, exec i s = .next (arcSineInto len r1 z y s) → arcSine i len z y :=
    fun i len z y hexec => ⟨fun h => ⟨_, hexec, arcSineInto_fails h⟩, fun h hz => ⟨_, hexec, arcSineInto_angle h hz⟩⟩
  have htangent : ∀ i len x y, exec i s = .next (arcTangentInto len r1 x y s) → arcTangent i len x y := by
    intro i len x y hexec
    have hsum := sumSquares_eq x y
    refine ⟨?zero, fun hn => ?either, fun hgt => ?large, fun hn hle => ?small⟩
    case zero =>
      rintro rfl rfl
      exact ⟨_, hexec, arcTangentInto_zero⟩
    case either =>
      obtain hover | hover := Bool.eq_false_or_eq_true (hypOverflows s.cpr _ (s.freeBit 4))
      · exact .inl ⟨_, hexec, arcTangentInto_fails hsum hn hover⟩
      · exact .inr ⟨_, hexec, arcTangentInto_ends hsum hn hover⟩
    case large => exact ⟨_, hexec, arcTangentInto_fails hsum (Nat.ne_zero_of_lt hgt) (hypOverflows_of_gt hgt)⟩
    case small => exact ⟨_, hexec, arcTangentInto_ends hsum hn (hypOverflows_of_le hle)⟩
  exact ⟨fun r2 h2 h22 => ⟨hsine _ _ _ _ (require_pos (evenReg_and_quadReg h1 h2 h22)),
      fun h12 => htangent _ _ _ _ (require_pos (quadReg_and_quadReg h1 h12 h2 h22))⟩,
    fun x2 a2 h h4 => ⟨hsine _ _ _ _ (requireEven_operandTwo_pos h1 h h4),
      fun h12 => htangent _ _ _ _ (requireQuad_operandTwo_pos h1 h12 h h4)⟩⟩

/-! ### ECPR, COSR and COS -/

theorem cosineSine_ends (t : Full) :
    let u := cosineSine len r1 t s
    s.lcOnly u (s.psw.lc + len) ∧ s.Keeps u [r1, r1 + 1, r1 + 2, r1 + 3] nowhere ∧
      u.pair r1 = s.pickFull 1 (nearFixed (fixedCosSin t.toNat).1 (errorCos s.cpr)) ∧
      u.pair (r1 + 2) = s.pickFull 2 (nearFixed (fixedCosSin t.toNat).2 (errorCos s.cpr)) := by
  intro u
  refine ⟨State.lcOnly_advance rfl len, (State.keeps_quad s r1 _ _).of_eq rfl rfl rfl, State.pairs_of_quad ?_⟩
  exact State.quad_setQuad_self s r1 _

/-- At an angle whose cosine and sine have no binary places below 2^-30 the results are near them. -/
theorem cosineSine_near {t : Full} {c n : Int} (ht : fixedCosSin t.toNat = (c * 2 ^ 98, n * 2 ^ 98))
    (hc : c.natAbs ≤ 2 ^ 30) (hn : n.natAbs ≤ 2 ^ 30) :
    let u := cosineSine len r1 t s
    within (errorCos s.cpr) (u.pair r1).toInt c ∧ within (errorCos s.cpr) (u.pair (r1 + 2)).toInt n := by
  intro u
  obtain ⟨-, -, hcos, hsin⟩ := cosineSine_ends (s := s) (len := len) (r1 := r1) t
  have he := errorCos_bounds s.cpr
  rw [hcos, hsin, ht, nearFixed_mul, nearFixed_mul]
  exact ⟨s.pickFull_within 1 (by omega) (by omega), s.pickFull_within 2 (by omega) (by omega)⟩

theorem execEcpr_ends (s : State) (r1 r2 : Nibble) : ∃ t, execEcpr r1 r2 s = .next t ∧ t.reg r1 = s.cpr ∧
    t.cpr = 0x0010 ||| (0x001C &&& s.reg r2) ∧ s.lcOnly t (s.psw.lc + 2) ∧
    s.Keeps { t with cpr := s.cpr } [r1] nowhere := by
  refine ⟨_, rfl, State.reg_setReg_self _ _ _, rfl, rfl, ?_⟩
  have hkeeps : s.Keeps (s.setReg r1 s.cpr) [r1] nowhere := State.Keeps.setReg r1 _ (List.mem_singleton.2 rfl)
  exact hkeeps.of_eq rfl rfl rfl

end Sys2Proof.Machine

namespace Sys2Proof.Laws

open Machine

/-- Settles O39: the precision register, and cosine and sine by the values at the quadrant angles. -/
theorem cosineSine : Obligations.CosineSine := by
  intro s r1 r2
  refine ⟨execEcpr_ends s r1 r2, ?_⟩
  intro h1 h12 near turns
  have hturns : ∀ i len w, exec i s = .next (Machine.cosineSine len r1 w s) → turns i len w := by
    intro i len w hexec
    obtain ⟨hlc, hkeeps, -, -⟩ := cosineSine_ends (s := s) (len := len) (r1 := r1) w
    refine ⟨_, hexec, hlc, hkeeps, ?_, ?_, ?_, ?_⟩ <;> rintro rfl
    · exact cosineSine_near fixedCosSin_0 (by decide) (by decide)
    · exact cosineSine_near fixedCosSin_90 (by decide) (by decide)
    · exact cosineSine_near fixedCosSin_180 (by decide) (by decide)
    · exact cosineSine_near fixedCosSin_270 (by decide) (by decide)
  exact ⟨fun h2 => hturns _ _ _ (require_pos (quadReg_and_of_isEven h1 h12 h2)),
    fun x2 a2 h => hturns _ _ _ (requireQuad_operandFull_pos h1 h12 h)⟩

end Sys2Proof.Laws
end
